-- ==== Sys2Proof/Word.lean ====
section
/-! DEFINITION. The widths the spec computes with (00_scope.md R14, R19, R23; 20_memory.md R100). Unsigned bit vectors only. -/

namespace Sys2Proof

/-- A 4-bit field: a variant code, a function code, the encoder's output (30_encoding.md R131, R151). -/
abbrev Nibble := BitVec 4

/-- A byte of a RAM (10_state.md R54..R56). -/
abbrev Byte := BitVec 8

/-- A 16-bit word: the spec's "word" (00_scope.md R14). -/
abbrev Half := BitVec 16

/-- A 32-bit host bus register (10_state.md R30). -/
abbrev Word := BitVec 32

/-- A host bus address as the number of its 32-bit word: byte address `A` of 10_state.md R30 is `4 * a`, 0x000..0x7FC.
DEDUCED (safe): the bus carries no A[1:0] (20_memory.md R105), log 15. -/
abbrev BusAddr := BitVec 9

/-- A byte address of the image RAM, 0x00..0xFF (20_memory.md R100). -/
abbrev ImgAddr := BitVec 8

end Sys2Proof
end

