-- ==== Sys2Proof/Syntax.lean ====
section
/-! DEFINITION. The names of the spec: chip variants, channel functions, channels, RAMs, and the three commands of spec/opcode_table.json. -/

namespace Sys2Proof

/-- The chip variants (00_scope.md R4). Their codes are `Variant.code` (30_encoding.md R140). -/
inductive Variant
  | am | bm | r | ft2232C | ft2232H | ft4232H | ft232H | ft230X
  deriving DecidableEq, Repr

/-- The channel functions (30_encoding.md R141). -/
inductive ChannelFn
  | uart | fifo | opto | cpu | ft1284
  deriving DecidableEq, Repr

/-- The channels A..D (10_state.md R52). -/
inductive Chan
  | a | b | c | d
  deriving DecidableEq, Repr

/-- The five RAMs (10_state.md R54..R56). -/
inductive RamId
  | strM | strP | strS | udb | img
  deriving DecidableEq, Repr

/-- One image size in bytes: 128 or 256 and nothing else (00_scope.md R13). -/
inductive ImgSize
  | b128 | b256
  deriving DecidableEq, Repr

/-- The command words of spec/opcode_table.json, one constructor a row. `var` and `fn` are the word's own 4-bit codes,
all sixteen legal (30_encoding.md R133); `szb` is the size bit. The types hold no ill-formed operand. -/
inductive Instr
  /-- BUILD (40_build.md R170): no operand in the word. -/
  | build
  /-- ENCODE (41_channel_encoder.md R240). -/
  | encode (var fn : Nibble)
  /-- CHECKSUM (42_checksum.md R260). -/
  | checksum (var : Nibble) (szb : Bool)
  deriving DecidableEq, Repr

end Sys2Proof
end

