-- ==== Sys2Proof/Config.lean ====
section
/-! DEFINITION. What an implementation fixes: the shape of the parameter set of 00_scope.md R12 (its values are data,
held in State), and the free values of the spec's open points, which have no body. -/

namespace Sys2Proof

/-- One value for each chip variant: a table indexed by `v` in 00_scope.md R12. -/
structure PerVariant (α : Type) where
  am : α
  bm : α
  r : α
  ft2232C : α
  ft2232H : α
  ft4232H : α
  ft232H : α
  ft230X : α
  deriving DecidableEq, Repr

/-- The table's row for `v`. -/
def PerVariant.get {α : Type} (t : PerVariant α) : Variant → α
  | .am => t.am
  | .bm => t.bm
  | .r => t.r
  | .ft2232C => t.ft2232C
  | .ft2232H => t.ft2232H
  | .ft4232H => t.ft4232H
  | .ft232H => t.ft232H
  | .ft230X => t.ft230X

/-- The `kind` of a layout entry, with its channel or constant (30_encoding.md R152). -/
inductive FieldKind
  | chType (chan : Chan)
  | chVcp (chan : Chan)
  | chHicur (chan : Chan)
  | chRs485 (chan : Chan)
  | useSerial
  | chipId
  | const (k : Byte)
  deriving DecidableEq, Repr

/-- A layout-descriptor entry `(kind, chan, off, mask, shift)` (30_encoding.md R152). -/
structure LayoutEntry where
  kind : FieldKind
  off : ImgAddr
  mask : Byte
  shift : Fin 8
  deriving DecidableEq, Repr

/-- A CBUS slot `(off, shift)` (30_encoding.md R154). -/
structure CbusSlot where
  off : ImgAddr
  shift : Nat
  deriving DecidableEq, Repr

/-- The OPEN parameters of one variant (00_scope.md R12). `NCBUS[v]` is the number of slots. -/
structure VariantParams where
  /-- `LAYOUT[v]` -/
  layout : List LayoutEntry
  /-- `FREE_START[v]` -/
  freeStart : Nat
  /-- `GROUP_BASE[v]` -/
  groupBase : Nat
  /-- `NGROUPS[v]` -/
  nGroups : Nat
  /-- `CBUS_SLOT[v][k]` for each pin `k` -/
  cbusSlots : List CbusSlot
  /-- `CBUS_W[v]` -/
  cbusW : Nat
  /-- `CBUS_MAX[v]` -/
  cbusMax : Nat
  /-- `CBUS_DEFAULT[v]` -/
  cbusDefault : Nat
  deriving DecidableEq, Repr

/-- A condition on the arguments of `SIZE(v, chipid, cfg)` (00_scope.md R12). -/
inductive SizeTest
  /-- the variant is `v` -/
  | variant (v : Variant)
  /-- the chip identifier is `id` -/
  | chipid (id : Byte)
  /-- the chip identifier is in `BIG_CHIPIDS` -/
  | bigChipid
  /-- the configuration overrides the size, with this SZOVR_256 (10_state.md R48) -/
  | overridden (size256 : Bool)
  deriving DecidableEq, Repr

/-- One case of `SIZE`: the size in bytes where every test holds. -/
structure SizeCase where
  tests : List SizeTest
  size : Nat
  deriving DecidableEq, Repr

/-- The function `SIZE(v, chipid, cfg)` as data: the first case that holds decides (log 24). -/
structure SizeTable where
  cases : List SizeCase
  /-- the size in bytes where no case holds -/
  otherwise : Nat
  deriving DecidableEq, Repr

/-- The numeric tables and offsets that have a default value (00_scope.md R12; 92_eei_decisions.md D13, D43). -/
structure SourceTables where
  /-- `SIZE(v, chipid, cfg)` -/
  size : SizeTable
  /-- `BASE[v]` -/
  base : PerVariant Nat
  /-- `STR_START[v]` -/
  strStart : PerVariant Half
  /-- `CK_SEED` -/
  ckSeed : Half
  /-- `BIG_CHIPIDS` -/
  bigChipids : List Byte
  /-- `X230_SKIP_LO` -/
  skipLo : Nat
  /-- `X230_SKIP_HI` -/
  skipHi : Nat
  /-- `X230_LIVE_LO` -/
  liveLo : Nat
  /-- `X230_LIVE_HI` -/
  liveHi : Nat
  /-- `X230_KEEP_LO` -/
  keepLo : Nat
  /-- `X230_KEEP_HI` -/
  keepHi : Nat
  /-- `OFF_REL` -/
  offRel : ImgAddr
  /-- `OFF_FLAGS` -/
  offFlags : ImgAddr
  /-- `OFF_POWER` -/
  offPower : ImgAddr
  /-- `OFF_CFG` -/
  offCfg : ImgAddr
  deriving DecidableEq, Repr

/-- The capacities of the register file and the RAMs (00_scope.md R12). -/
structure Capacities where
  /-- `IMG_CAP` -/
  imgCap : Nat
  /-- `MAX_STR` -/
  maxStr : Nat
  /-- `MAX_GROUPS` -/
  maxGroups : Nat
  /-- `MAX_CHAN` -/
  maxChan : Nat
  /-- `MAX_CBUS` -/
  maxCbus : Nat
  /-- `UD_CAP` -/
  udCap : Nat
  deriving DecidableEq, Repr

/-- `MFR_OFFSET_MODE` (40_build.md R183). -/
inductive MfrOffsetMode
  | raw | masked
  deriving DecidableEq, Repr

/-- The parameter set the model takes as an argument (00_scope.md R12). -/
structure Params where
  tables : SourceTables
  variants : PerVariant VariantParams
  /-- `FALLBACK_WORD` -/
  fallbackWord : Half
  mfrOffsetMode : MfrOffsetMode
  /-- `FAMILY_2232` -/
  family2232 : List Variant
  caps : Capacities
  deriving DecidableEq, Repr

/-- FREE VALUE (log 1, log 12): what a RAM byte that holds no known value reads as. 70_reset_and_hazards.md R341 and
93_implementation_defined.md I7 give any value, per byte; `gen` tells apart the contents of one RAM before and after they
became unspecified again. DESIGN CHOICE of form, safe: nothing constrains it. -/
opaque Config.powerOnByte (ram : RamId) (gen : Nat) (addr : Nat) : Byte

/-- FREE VALUE (log 9): what the `n`-th host read of the IMG window while BUSY = 1 returns (20_memory.md R114; I8). Safe. -/
opaque Config.busyImgRead (n : Nat) : Word

/-- FREE VALUE (log 8): the CHIPID sample of a BUILD whose DEV_CHIPID input moved before step 1
(70_reset_and_hazards.md R356; 93_implementation_defined.md I6). Safe. -/
opaque Config.unstableChipid (n : Nat) : Byte

end Sys2Proof
end

