-- ==== Sys2Proof/WellFormed.lean ====
section
/-! DEFINITION. Which command words are well formed: the opcode map of 30_encoding.md R132 as rows of mask and match.
Every term of `Instr` is well formed by the widths of its fields; the other check of the model, on parameter sets
(40_build.md R194), is `Params.check` in Machine/Parameters.lean, where a later repair can reach it. -/

namespace Sys2Proof

/-- One row of the opcode map: a word `w` belongs to it when `w & mask = pattern` (30_encoding.md R132). -/
structure OpcodeRow where
  mnemonic : String
  pattern : Word
  mask : Word
  deriving DecidableEq, Repr

/-- BUILD's row. -/
def buildRow : OpcodeRow := ⟨"BUILD", 0x00000001#32, 0xFFFFFFFF#32⟩

/-- ENCODE's row. -/
def encodeRow : OpcodeRow := ⟨"ENCODE", 0x00000002#32, 0xFFFFF00F#32⟩

/-- CHECKSUM's row. -/
def checksumRow : OpcodeRow := ⟨"CHECKSUM", 0x00000003#32, 0xFFFFEF0F#32⟩

/-- The opcode map (30_encoding.md R132). -/
def opcodeRows : List OpcodeRow := [buildRow, encodeRow, checksumRow]

/-- `w` belongs to the row. -/
def OpcodeRow.accepts (r : OpcodeRow) (w : Word) : Bool := w &&& r.mask == r.pattern

/-- "A word is a legal command exactly when `(w & mask) = match` for one row" (30_encoding.md R132). -/
def wellFormedWord (w : Word) : Bool := opcodeRows.any fun r => r.accepts w

/-- The row of an instruction. -/
def Instr.row : Instr → OpcodeRow
  | .build => buildRow
  | .encode _ _ => encodeRow
  | .checksum _ _ => checksumRow

end Sys2Proof
end

