-- ==== Sys2Proof/Decode.lean ====
section
/-! DEFINITION. The codes of the spec's names, the command word's decoder and encoder (30_encoding.md R130..R136, R140, R141). -/

namespace Sys2Proof

/-- The variant a 4-bit code names; 8..15 name none (30_encoding.md R140). -/
def Variant.ofCode? (c : Nibble) : Option Variant :=
  match c.toNat with
  | 0 => some .am
  | 1 => some .bm
  | 2 => some .r
  | 3 => some .ft2232C
  | 4 => some .ft2232H
  | 5 => some .ft4232H
  | 6 => some .ft232H
  | 7 => some .ft230X
  | _ => none

/-- The code of a variant (30_encoding.md R140). -/
def Variant.code : Variant → Nibble
  | .am => 0
  | .bm => 1
  | .r => 2
  | .ft2232C => 3
  | .ft2232H => 4
  | .ft4232H => 5
  | .ft232H => 6
  | .ft230X => 7

/-- The function a 4-bit code names; 5..15 are unrecognized (30_encoding.md R141). -/
def ChannelFn.ofCode? (c : Nibble) : Option ChannelFn :=
  match c.toNat with
  | 0 => some .uart
  | 1 => some .fifo
  | 2 => some .opto
  | 3 => some .cpu
  | 4 => some .ft1284
  | _ => none

/-- The code of a function (30_encoding.md R141). -/
def ChannelFn.code : ChannelFn → Nibble
  | .uart => 0
  | .fifo => 1
  | .opto => 2
  | .cpu => 3
  | .ft1284 => 4

/-- Field OP of a command word (30_encoding.md R131). -/
def fieldOp (w : Word) : Nibble := w.extractLsb' 0 4

/-- Field VAR of a command word (30_encoding.md R131). -/
def fieldVar (w : Word) : Nibble := w.extractLsb' 4 4

/-- Field FN of a command word (30_encoding.md R131). -/
def fieldFn (w : Word) : Nibble := w.extractLsb' 8 4

/-- Field SZB of a command word (30_encoding.md R131). -/
def fieldSzb (w : Word) : Bool := w.getLsbD 12

/-- Field RES of a command word (30_encoding.md R130). -/
def fieldRes (w : Word) : BitVec 19 := w.extractLsb' 13 19

/-- Why a command word is illegal (30_encoding.md R134). Both ways end with BadCommand. -/
inductive DecodeError
  /-- OP is 0x0 or 0x4..0xF. -/
  | unknownOpcode (op : Nibble)
  /-- A legal OP with a nonzero bit in a must-be-0 field. -/
  | mustBeZero (op : Nibble)
  deriving DecidableEq, Repr

/-- The decoder of 30_encoding.md R132..R134, total on every word. -/
def decode (w : Word) : Except DecodeError Instr :=
  match (fieldOp w).toNat with
  | 1 =>
    if fieldVar w = 0 ∧ fieldFn w = 0 ∧ fieldSzb w = false ∧ fieldRes w = 0 then .ok .build
    else .error (.mustBeZero (fieldOp w))
  | 2 =>
    if fieldSzb w = false ∧ fieldRes w = 0 then .ok (.encode (fieldVar w) (fieldFn w))
    else .error (.mustBeZero (fieldOp w))
  | 3 =>
    if fieldFn w = 0 ∧ fieldRes w = 0 then .ok (.checksum (fieldVar w) (fieldSzb w))
    else .error (.mustBeZero (fieldOp w))
  | _ => .error (.unknownOpcode (fieldOp w))

/-- The word of fields RES, SZB, FN, VAR, OP (30_encoding.md R130). -/
def commandWord (szb : Bool) (fn var op : Nibble) : Word :=
  (0#19 ++ BitVec.ofBool szb ++ fn ++ var ++ op : BitVec (19 + 1 + 4 + 4 + 4))

/-- The command word of an instruction (30_encoding.md R132, R133, R136). -/
def encode : Instr → Word
  | .build => commandWord false 0 0 1
  | .encode var fn => commandWord false fn var 2
  | .checksum var szb => commandWord szb 0 var 3

/-- What the decoder reads from a table row's bits: one 32-bit bus word, bits above `nbits` zero. -/
def decodeTableWord (nbits w : Nat) : Option Instr :=
  match decode (BitVec.ofNat 32 (w % 2 ^ nbits)) with
  | .ok i => some i
  | .error _ => none

end Sys2Proof
end

