-- ==== Sys2Proof/Machine/Encoder.lean ====
section
/-! DEFINITION. The channel-type encoder, a pure lookup (41_channel_encoder.md R240..R243). -/

namespace Sys2Proof.Machine

/-- The encoder's table (41_channel_encoder.md R241; output values 30_encoding.md R151). `family` is FAMILY_2232. -/
def channelBits (family : List Variant) (fn : ChannelFn) (v : Variant) : Nibble :=
  match fn with
  | .uart => 0
  | .fifo => 1
  | .opto => if v ∈ family ∨ v = .ft232H then 2 else 0
  | .cpu => if v ∈ family ∨ v = .ft232H then 4 else 0
  | .ft1284 => if v = .ft232H then 8 else 0

/-- `Encode(fn, v)` on codes: an unrecognized function or variant encodes as 0, with no error (41_channel_encoder.md R242). -/
def encodeChannel (family : List Variant) (fn var : Nibble) : Nibble :=
  match ChannelFn.ofCode? fn, Variant.ofCode? var with
  | some f, some v => channelBits family f v
  | _, _ => 0

end Sys2Proof.Machine
end

