-- ==== Sys2Proof/Machine/Parameters.lean ====
section
/-! DEFINITION. The parameter values of 00_scope.md R12, the test parameter set TP of 95_test_vectors.md, and the check of
40_build.md R194 on step-7 parameters. -/

namespace Sys2Proof

/-- Bytes of an image (00_scope.md R13). -/
def ImgSize.bytes : ImgSize → Nat
  | .b128 => 128
  | .b256 => 256

/-- The size a size bit selects: 0 is 128 bytes, 1 is 256 (10_state.md R48, 30_encoding.md R133). -/
def ImgSize.ofBit (b : Bool) : ImgSize := if b then .b256 else .b128

/-- The image size of `n` bytes, for the two `n` that 00_scope.md R13 allows (`SizeTable.fit`). -/
def ImgSize.ofBytes (n : Nat) : ImgSize := if n = 256 then .b256 else .b128

/-- Every size is 128 or 256 "and nothing else" (00_scope.md R13). -/
def SizeTable.fit (t : SizeTable) : Bool :=
  (t.otherwise :: t.cases.map (·.size)).all fun n => n == 128 || n == 256

/-- `SIZE` at its default, in the order of 40_build.md R171: the override, then BIG_CHIPIDS, else 128. -/
def SizeTable.standard : SizeTable where
  cases := [⟨[.overridden false], 128⟩, ⟨[.overridden true], 256⟩, ⟨[.bigChipid], 256⟩]
  otherwise := 128

/-- Row `v` of the OPEN parameters. -/
def Params.variant (p : Params) (v : Variant) : VariantParams := p.variants.get v

/-- `BASE[v]`. -/
def Params.base (p : Params) (v : Variant) : Nat := p.tables.base.get v

/-- `STR_START[v]`. -/
def Params.strStart (p : Params) (v : Variant) : Half := p.tables.strStart.get v

/-- `GROUP_BASE[v]`; its default on 2232H is 0x0C (`Params.test`; log 18). -/
def Params.groupBase (p : Params) (v : Variant) : Nat := (p.variant v).groupBase

/-- `NGROUPS[v]`; its default on 2232H is 4 (`Params.test`; log 18). -/
def Params.nGroups (p : Params) (v : Variant) : Nat := (p.variant v).nGroups

/-- `NCBUS[v]`: the number of slots. -/
def Params.nCbus (p : Params) (v : Variant) : Nat := (p.variant v).cbusSlots.length

/-- The 8-bit mask of nibble `g mod 2` of a group byte (40_build.md R187). -/
def groupMask (g : Nat) : Byte := 0x0F#8 <<< (4 * (g % 2))

/-- The 8-bit mask of a CBUS slot (40_build.md R193). -/
def cbusMask (w shift : Nat) : Byte := BitVec.ofNat 8 (((1 <<< w) - 1) <<< shift)

/-- Every (image byte, bits) that step 7 writes on variant `v` (40_build.md R194). -/
def Params.claims (p : Params) (v : Variant) : List (Nat × Byte) :=
  (p.variant v).layout.map (fun e => (e.off.toNat, e.mask))
    ++ (List.range (p.nGroups v)).map (fun g => (p.groupBase v + g / 2, groupMask g))
    ++ (p.variant v).cbusSlots.map (fun c => (c.off.toNat, cbusMask (p.variant v).cbusW c.shift))

/-- R194 condition 1: every step-7 offset is in 0x00..0x7D. -/
def Params.offsetsInImage (p : Params) (v : Variant) : Bool :=
  (p.claims v).all fun c => c.1 ≤ 0x7D

/-- The bytes that step 4 writes whole on every variant (40_build.md R177, R178). -/
def SourceTables.stepFourBytes (t : SourceTables) : List Nat :=
  [0x02, 0x03, 0x04, 0x05, t.offRel.toNat, t.offRel.toNat + 1, t.offFlags.toNat, t.offPower.toNat]

/-- R194 condition 2: no step-7 bit is a step-4 bit or a header-slot bit. The bytes 0x02..0x09 it names are closed to step 7
also where OFF_REL, OFF_FLAGS or OFF_POWER moves a field out of them (DEDUCED, safe), log 17. -/
def Params.avoidsFixedFields (p : Params) (v : Variant) : Bool :=
  (p.claims v).all fun c =>
    (c.2 == 0 || !((0x02 ≤ c.1 && c.1 ≤ 0x09) || (0x0E ≤ c.1 && c.1 ≤ 0x13) || c.1 ∈ p.tables.stepFourBytes))
      && (v == .am || v == .ft230X || c.1 != p.tables.offCfg.toNat || c.2 &&& 0x03 == 0)

/-- No two of the claims share a bit. -/
def claimsDisjoint : List (Nat × Byte) → Bool
  | [] => true
  | c :: cs => cs.all (fun d => c.1 != d.1 || c.2 &&& d.2 == 0) && claimsDisjoint cs

/-- R194 condition 3: no bit of any byte is claimed twice. -/
def Params.bitsDisjoint (p : Params) (v : Variant) : Bool := claimsDisjoint (p.claims v)

/-- The values an entry's kind can yield for `v` (40_build.md R192, R194 condition 4). CHIP_ID yields every byte; 0xFF
holds all their bits, so it fits exactly when every byte does (DEDUCED, safe). -/
def FieldKind.values (k : FieldKind) (family : List Variant) (v : Variant) : List Byte :=
  match k with
  | .chType _ => (List.range 16).map fun f => (Machine.encodeChannel family (BitVec.ofNat 4 f) v.code).setWidth 8
  | .chVcp _ => [0, 1]
  | .chHicur _ => [0, 1]
  | .chRs485 _ => [0, 1]
  | .useSerial => [0, 1]
  | .chipId => [0x00, 0xFF]
  | .const k => [k]

/-- `(val << shift) & mask = val << shift` and `val << shift ≤ 0xFF`. -/
def LayoutEntry.fits (e : LayoutEntry) (val : Byte) : Bool :=
  val.toNat <<< e.shift.val ≤ 0xFF && (val.toNat <<< e.shift.val) &&& e.mask.toNat == val.toNat <<< e.shift.val

/-- R194 condition 4: values fit. -/
def Params.valuesFit (p : Params) (v : Variant) : Bool :=
  (p.variant v).layout.all fun e => (e.kind.values p.family2232 v).all e.fits

/-- R194 condition 5: capacities. Checked as it stands also where `NCBUS[v] = 0` (DEDUCED, safe), log 19. -/
def Params.capacities (p : Params) (v : Variant) : Bool :=
  let q := p.variant v
  p.nGroups v ≤ p.caps.maxGroups && p.nCbus v ≤ p.caps.maxCbus && (q.cbusW == 4 || q.cbusW == 8)
    && q.cbusDefault ≤ q.cbusMax && q.cbusMax < 2 ^ q.cbusW
    && q.cbusSlots.all fun c => c.shift + q.cbusW ≤ 8

/-- The number of a channel: A 0, B 1, C 2, D 3 (10_state.md R52). -/
def Chan.index : Chan → Fin 4
  | .a => 0
  | .b => 1
  | .c => 2
  | .d => 3

/-- The channel an entry reads, if it reads one (30_encoding.md R152). -/
def FieldKind.chan? : FieldKind → Option Chan
  | .chType ch => some ch
  | .chVcp ch => some ch
  | .chHicur ch => some ch
  | .chRs485 ch => some ch
  | _ => none

/-- R194 condition 6: an entry's channel has a register. -/
def Params.channelsExist (p : Params) (v : Variant) : Bool :=
  (p.variant v).layout.all fun e => match e.kind.chan? with
    | some ch => ch.index.val < p.caps.maxChan
    | none => true

/-- R194 condition 7: exactly one CHIP_ID entry, with mask 0xFF and shift 0. -/
def Params.oneChipId (p : Params) (v : Variant) : Bool :=
  match (p.variant v).layout.filter (fun e => e.kind == .chipId) with
  | [e] => e.mask == 0xFF && e.shift == 0
  | _ => false

/-- The conditions of 40_build.md R194 on one variant. -/
def Params.checkVariant (p : Params) (v : Variant) : Bool :=
  p.offsetsInImage v && p.avoidsFixedFields v && p.bitsDisjoint v && p.valuesFit v && p.capacities v
    && p.channelsExist v && p.oneChipId v

/-- The variants in the enumeration order of 00_scope.md R4. -/
def allVariants : List Variant := [.am, .bm, .r, .ft2232C, .ft2232H, .ft4232H, .ft232H, .ft230X]

/-- Step 4 writes below 0x80, and its 16-bit field at an even address (20_memory.md R105, R108). Asked of OFF_REL, OFF_FLAGS,
OFF_POWER and OFF_CFG: DEDUCED (safe), log 17. -/
def SourceTables.offsetsFit (t : SourceTables) : Bool :=
  t.offRel.toNat < 0x80 && t.offRel.toNat % 2 == 0 && t.offFlags.toNat < 0x80 && t.offPower.toNat < 0x80
    && t.offCfg.toNat < 0x80

/-- The register map of 10_state.md R31 and the address widths of 20_memory.md R100 can hold these capacities. DEDUCED (safe),
log 23. -/
def Capacities.fit (c : Capacities) : Bool :=
  c.imgCap == 256 && c.udCap == 256 && c.maxStr == 127 && c.maxGroups ≤ 8 && c.maxChan ≤ 4 && c.maxCbus ≤ 10

/-- The check of 40_build.md R194, on all eight variants (DEDUCED, safe: the model builds every variant), log 6, with what the
other rules ask of the sizes, the offsets and the capacities (logs 17, 23, 24). -/
def Params.check (p : Params) : Bool :=
  p.tables.size.fit && p.tables.offsetsFit && p.caps.fit && allVariants.all p.checkVariant

/-- The tables and offsets at their default values (00_scope.md R12). -/
def SourceTables.standard : SourceTables where
  size := SizeTable.standard
  base := ⟨96, 96, 96, 90, 214, 214, 80, 88⟩
  strStart := ⟨0x94, 0x94, 0x98, 0x96, 0x9A, 0x9A, 0xA0, 0xA0⟩
  ckSeed := 0xAAAA
  bigChipids := [0x56, 0x66]
  skipLo := 0x12
  skipHi := 0x40
  liveLo := 0x40
  liveHi := 0x50
  keepLo := 0x80
  keepHi := 0xA0
  offRel := 0x06
  offFlags := 0x08
  offPower := 0x09
  offCfg := 0x0A

/-- The capacities at their default values (00_scope.md R12). -/
def Capacities.standard : Capacities where
  imgCap := 256
  maxStr := 127
  maxGroups := 8
  maxChan := 4
  maxCbus := 10
  udCap := 256

/-- The informative 2232H layout (40_build.md R196). -/
def layout2232H : List LayoutEntry :=
  [⟨.chType .a, 0x00, 0x07, 0⟩, ⟨.chVcp .a, 0x00, 0x08, 3⟩,
   ⟨.chType .b, 0x01, 0x07, 0⟩, ⟨.chVcp .b, 0x01, 0x08, 3⟩,
   ⟨.useSerial, 0x0A, 0x08, 3⟩, ⟨.chipId, 0x18, 0xFF, 0⟩]

/-- A variant of the test set TP with no group and no CBUS pin (95_test_vectors.md, Conventions). -/
def testVariant : VariantParams where
  layout := [⟨.chipId, 0x0B, 0xFF, 0⟩]
  freeStart := 0
  groupBase := 0
  nGroups := 0
  cbusSlots := []
  cbusW := 4
  cbusMax := 0
  cbusDefault := 0

/-- The parameter set of 00_scope.md R12 at its defaults, with the OPEN parameters at the test set TP of 95_test_vectors.md.
DESIGN CHOICE (unsafe): TP is "a test choice, not a hardware value", log 5. -/
def Params.test : Params where
  tables := SourceTables.standard
  variants :=
    { am := testVariant
      bm := testVariant
      r := testVariant
      ft2232C := testVariant
      ft2232H := { testVariant with layout := layout2232H, groupBase := 0x0C, nGroups := 4 }
      ft4232H := testVariant
      ft232H := { testVariant with cbusSlots := [⟨0x0C, 0⟩, ⟨0x0C, 4⟩], cbusMax := 9 }
      ft230X := testVariant }
  fallbackWord := 0x0000
  mfrOffsetMode := .raw
  family2232 := [.ft2232C, .ft2232H]
  caps := Capacities.standard

end Sys2Proof
end

