-- ==== Sys2Proof/Machine/State.lean ====
section
/-! DEFINITION. The state of the ILE as plain data: every register, RAM, hidden register and port of 10_state.md, the
inputs that have yet to arrive, and the machine right after a power-on reset (10_state.md R66, 70_reset_and_hazards.md R340). -/

namespace Sys2Proof.Machine

/-- The values of STATUS.ERR (60_exceptions.md R302). Codes 5..7 "are never written", so they have no name here. -/
inductive ErrorCode
  | none | noConfiguration | unknownChip | sizeExceeded | badCommand
  deriving DecidableEq, Repr

/-- STATUS (10_state.md R34). The host reads it as the word `Status.toWord`. -/
structure Status where
  busy : Bool
  done : Bool
  built : Bool
  err : ErrorCode
  wDrive : Bool
  wCbus : Bool
  wUdStart : Bool
  wUdOvl : Bool
  wRdFail : Bool
  hostViol : Bool
  deriving DecidableEq, Repr

/-- The accepted command word, decoded (10_state.md R59, 30_encoding.md R131). -/
structure CmdV where
  op : Nibble
  var : Nibble
  fn : Nibble
  szb : Bool
  deriving DecidableEq, Repr

/-- The configuration registers (10_state.md R45..R53), each the whole 32-bit word the host reads. -/
structure ConfigRegs where
  id : Word
  desc : Word
  power : Word
  chip : Word
  strLen : Word
  ud : Word
  groups : Vector Word 8
  chans : Vector Word 4
  cbus : Vector Word 3
  deriving DecidableEq, Repr

/-- PHASE, the sequencer's position (10_state.md R58). -/
inductive Phase
  | idle | bCheck | b1 | b2 | b3 | b4 | b5 | b6 | b7 | b8 | b9 | b10 | kLoop | kWait | eRun
  deriving DecidableEq, Repr

/-- What reaches the ILE from outside: host bus accesses, the reset input, the DEV_CHIPID input, the device's answers
(10_state.md R30, R63, R64; 70_reset_and_hazards.md R340). -/
inductive Input
  | hostWrite (addr : BusAddr) (value : Word)
  | hostRead (addr : BusAddr)
  /-- RST is asserted (`true`) or released (`false`). -/
  | reset (asserted : Bool)
  /-- The platform drives DEV_CHIPID. -/
  | chipId (value : Byte)
  /-- RDW_ACK with RDW_DATA and RDW_ERR. -/
  | deviceAck (data : Half) (err : Bool)
  deriving DecidableEq, Repr

/-- An input, and how many sequencer steps pass before it lands, counted from the one before it; it lands at once when
the sequencer has no step to take (log 2). -/
structure Arrival where
  after : Nat
  input : Input
  deriving DecidableEq, Repr

/-- A RAM's known bytes: address and byte pairs, addresses strictly rising. An address that is not listed holds no known
value (10_state.md R66) and reads as the free value `Config.powerOnByte`, log 1. -/
abbrev Memory := List Host.Cell

/-- The machine. -/
structure State where
  /-- CMD (R33) -/
  cmd : Word
  /-- STATUS (R34) -/
  status : Status
  /-- UAREA[15:0] (R41) -/
  uarea : Half
  /-- CKSUM[15:0] (R42) -/
  cksum : Half
  /-- ENCRES[3:0] (R43) -/
  encres : Nibble
  /-- IMGSIZE[8:0] (R44) -/
  imgSize : BitVec 9
  /-- the CFG registers (R45..R53) -/
  cfg : ConfigRegs
  /-- STR_M (R54) -/
  strM : Memory
  /-- STR_P (R54) -/
  strP : Memory
  /-- STR_S (R54) -/
  strS : Memory
  /-- UDB (R55) -/
  udb : Memory
  /-- IMG (R56) -/
  img : Memory
  /-- PHASE (R58) -/
  phase : Phase
  /-- CMDV (R59) -/
  cmdv : CmdV
  /-- CUR (R60) -/
  cur : Half
  /-- SZ (R61) -/
  sz : ImgSize
  /-- CHIPID (R61) -/
  chipid : Byte
  /-- UA (R61), signed (log 14) -/
  ua : Int
  /-- CK (R62) -/
  ck : Half
  /-- WI (R62) -/
  wi : Byte
  /-- RDW_WAIT (R62) -/
  rdwWait : Bool
  /-- RDW_REQ output (R63) -/
  rdwReq : Bool
  /-- RDW_IDX output (R63) -/
  rdwIdx : Byte
  /-- RST input level (R340, log 20) -/
  rst : Bool
  /-- DEV_CHIPID input level (R63, log 7) -/
  devChipid : Byte
  /-- MODEL's own: DEV_CHIPID moved since the running command was accepted (log 8) -/
  chipidMoved : Bool
  /-- MODEL's own: which unspecified contents IMG holds (log 12) -/
  imgGen : Nat
  /-- MODEL's own: the number of the next free value (logs 8, 9) -/
  draws : Nat
  /-- MODEL's own: what the last host read returned (log 11) -/
  hostRdata : Word
  /-- MODEL's own: the parameter set, never written by a step (00_scope.md R12, log 5) -/
  params : Params
  /-- MODEL's own: what is still to arrive from outside, in order (log 2) -/
  inputs : List Arrival
  deriving DecidableEq, Repr

/-- Why the machine stops. The spec names no such stop: an error ends a command with a code (60_exceptions.md R308). -/
inductive Fault
  /-- Raised by `step` when BUSY = 1 and the sequencer stands where no command of the spec ever stands: a PHASE that the
  opcode in CMDV does not visit, or a BUILD or CHECKSUM past its variant check with a code 8..15. No run from reset gets
  there (`State.Inv`); the spec says nothing of it, so the model stops. Safe (log 13). -/
  | incoherentSequencer
  deriving DecidableEq, Repr

/-- Why an instruction is given no meaning. -/
inductive Refusal
  /-- Raised by an arm of `exec` that has no meaning yet. Safe. No arm raises it now. -/
  | notModelled (mnemonic : String)
  /-- Raised by every command when the parameter set fails 40_build.md R194: "the model rejects it before running any
  command". Safe (log 6). -/
  | illFormedParameters
  deriving DecidableEq, Repr

/-- STATUS at reset (10_state.md R34, R66). -/
def Status.reset : Status where
  busy := false
  done := false
  built := false
  err := .none
  wDrive := false
  wCbus := false
  wUdStart := false
  wUdOvl := false
  wRdFail := false
  hostViol := false

/-- The CFG registers at reset (10_state.md R66): every one 0. -/
def ConfigRegs.reset : ConfigRegs where
  id := 0
  desc := 0
  power := 0
  chip := 0
  strLen := 0
  ud := 0
  groups := Vector.replicate 8 0
  chans := Vector.replicate 4 0
  cbus := Vector.replicate 3 0

/-- The machine right after a power-on reset, RST released (10_state.md R66; 70_reset_and_hazards.md R340, R341, R343). The
model's own fields and the two input levels hold the values of logs 2, 5, 7, 8, 11, 12, 20 (DESIGN CHOICE). -/
def State.reset : State where
  cmd := 0
  status := .reset
  uarea := 0
  cksum := 0
  encres := 0
  imgSize := 0
  cfg := .reset
  strM := []
  strP := []
  strS := []
  udb := []
  img := []
  phase := .idle
  cmdv := ⟨0, 0, 0, false⟩
  cur := 0
  sz := .b128
  chipid := 0
  ua := 0
  ck := 0
  wi := 0
  rdwWait := false
  rdwReq := false
  rdwIdx := 0
  rst := false
  devChipid := 0
  chipidMoved := false
  imgGen := 0
  draws := 0
  hostRdata := 0
  params := Params.test
  inputs := []

end Sys2Proof.Machine
end

