-- ==== Sys2Proof/Machine/Flags.lean ====
section
/-! DEFINITION. STATUS: its word, and every change the ILE makes to it (10_state.md R34..R40; 60_exceptions.md R302..R306). -/

namespace Sys2Proof.Machine

/-- The code of an error (60_exceptions.md R302). -/
def ErrorCode.code : ErrorCode → BitVec 3
  | .none => 0
  | .noConfiguration => 1
  | .unknownChip => 2
  | .sizeExceeded => 3
  | .badCommand => 4

/-- STATUS as the host reads it (10_state.md R34); the bits of no field read 0. -/
def Status.toWord (t : Status) : Word :=
  (0#15 ++ BitVec.ofBool t.hostViol ++ 0#3 ++ BitVec.ofBool t.wRdFail ++ BitVec.ofBool t.wUdOvl
    ++ BitVec.ofBool t.wUdStart ++ BitVec.ofBool t.wCbus ++ BitVec.ofBool t.wDrive ++ 0#1 ++ t.err.code ++ 0#1
    ++ BitVec.ofBool t.built ++ BitVec.ofBool t.done ++ BitVec.ofBool t.busy
    : BitVec (15 + 1 + 3 + 1 + 1 + 1 + 1 + 1 + 1 + 3 + 1 + 1 + 1 + 1))

/-- STATUS when a command is accepted (60_exceptions.md R303). -/
def Status.accepted : Status where
  busy := true
  done := false
  built := false
  err := .none
  wDrive := false
  wCbus := false
  wUdStart := false
  wUdOvl := false
  wRdFail := false
  hostViol := false

/-- STATUS when a command ends with `code` (60_exceptions.md R306). -/
def Status.ended (t : Status) (code : ErrorCode) : Status := { t with err := code, busy := false, done := true }

/-- The five warnings (60_exceptions.md R304). -/
inductive Warning
  | drive | cbus | udStart | udOvl | rdFail
  deriving DecidableEq, Repr

/-- "warn W_x sets warning bit W_x of STATUS and continues" (00_scope.md R20). -/
def Status.warn (t : Status) : Warning → Status
  | .drive => { t with wDrive := true }
  | .cbus => { t with wCbus := true }
  | .udStart => { t with wUdStart := true }
  | .udOvl => { t with wUdOvl := true }
  | .rdFail => { t with wRdFail := true }

/-- HOST_VIOL is set (10_state.md R40). -/
def Status.violated (t : Status) : Status := { t with hostViol := true }

/-- BUILT is set (40_build.md R204). -/
def Status.markBuilt (t : Status) : Status := { t with built := true }

end Sys2Proof.Machine
end

