-- ==== Sys2Proof/Machine/Operands.lean ====
section
/-! DEFINITION. The operands of the commands: the fields of the configuration registers (10_state.md R45..R53), the fields
of CMDV (10_state.md R59), and the writable bits of each CFG register (10_state.md R32). -/

namespace Sys2Proof.Machine

/-- CMDV of a command word (30_encoding.md R131). -/
def CmdV.ofWord (w : Word) : CmdV := ⟨fieldOp w, fieldVar w, fieldFn w, fieldSzb w⟩

/-- CFG_ID.VID (R45). -/
def ConfigRegs.vid (c : ConfigRegs) : Half := c.id.extractLsb' 0 16

/-- CFG_ID.PID (R45). -/
def ConfigRegs.pid (c : ConfigRegs) : Half := c.id.extractLsb' 16 16

/-- CFG_DESC.REL (R46). -/
def ConfigRegs.rel (c : ConfigRegs) : Half := c.desc.extractLsb' 0 16

/-- CFG_DESC.SELF_POWERED (R46). -/
def ConfigRegs.selfPowered (c : ConfigRegs) : Bool := c.desc.getLsbD 16

/-- CFG_DESC.REMOTE_WAKEUP (R46). -/
def ConfigRegs.remoteWakeup (c : ConfigRegs) : Bool := c.desc.getLsbD 17

/-- CFG_DESC.USE_SERIAL (R46). -/
def ConfigRegs.useSerial (c : ConfigRegs) : Bool := c.desc.getLsbD 18

/-- CFG_DESC.ISO_IN (R46). -/
def ConfigRegs.isoIn (c : ConfigRegs) : Bool := c.desc.getLsbD 19

/-- CFG_DESC.ISO_OUT (R46). -/
def ConfigRegs.isoOut (c : ConfigRegs) : Bool := c.desc.getLsbD 20

/-- CFG_DESC.IS_NOT_PNP (R46). -/
def ConfigRegs.isNotPnp (c : ConfigRegs) : Bool := c.desc.getLsbD 21

/-- CFG_POWER.MAXPOWER (R47). -/
def ConfigRegs.maxPower (c : ConfigRegs) : Nat := (c.power.extractLsb' 0 9).toNat

/-- CFG_CHIP.VARIANT (R48). -/
def ConfigRegs.variantCode (c : ConfigRegs) : Nibble := c.chip.extractLsb' 0 4

/-- CFG_CHIP.SZOVR_EN (R48). -/
def ConfigRegs.szovrEn (c : ConfigRegs) : Bool := c.chip.getLsbD 8

/-- CFG_CHIP.SZOVR_256 (R48). -/
def ConfigRegs.szovr256 (c : ConfigRegs) : Bool := c.chip.getLsbD 9

/-- The overriding size bit, where the configuration overrides the size (R48). -/
def ConfigRegs.sizeOverride (c : ConfigRegs) : Option Bool := if c.szovrEn then some c.szovr256 else none

/-- CFG_CHIP.CFG_VALID (R48). -/
def ConfigRegs.cfgValid (c : ConfigRegs) : Bool := c.chip.getLsbD 31

/-- CFG_STRLEN.MFR_LEN (R49). -/
def ConfigRegs.mfrLen (c : ConfigRegs) : Nat := (c.strLen.extractLsb' 0 7).toNat

/-- CFG_STRLEN.PROD_LEN (R49). -/
def ConfigRegs.prodLen (c : ConfigRegs) : Nat := (c.strLen.extractLsb' 8 7).toNat

/-- CFG_STRLEN.SER_LEN (R49). -/
def ConfigRegs.serLen (c : ConfigRegs) : Nat := (c.strLen.extractLsb' 16 7).toNat

/-- CFG_UD.UD_OFFSET (R50). -/
def ConfigRegs.udOffset (c : ConfigRegs) : Nat := (c.ud.extractLsb' 0 16).toNat

/-- CFG_UD.UD_SIZE (R50). -/
def ConfigRegs.udSize (c : ConfigRegs) : Nat := (c.ud.extractLsb' 16 16).toNat

/-- CFG_GROUPg; 0 for a number no register has (never read: 40_build.md R194 condition 5). -/
def ConfigRegs.group (c : ConfigRegs) (g : Nat) : Word := c.groups.getD g 0

/-- CFG_GROUPg.DRIVE (R51). -/
def ConfigRegs.drive (c : ConfigRegs) (g : Nat) : Byte := (c.group g).extractLsb' 0 8

/-- CFG_GROUPg.SLOW_SLEW (R51). -/
def ConfigRegs.slowSlew (c : ConfigRegs) (g : Nat) : Bool := (c.group g).getLsbD 8

/-- CFG_GROUPg.SCHMITT (R51). -/
def ConfigRegs.schmitt (c : ConfigRegs) (g : Nat) : Bool := (c.group g).getLsbD 9

/-- CFG_CHANc (R52). -/
def ConfigRegs.chan (c : ConfigRegs) (ch : Chan) : Word := c.chans[ch.index]

/-- CFG_CHANc.FUNC (R52). -/
def ConfigRegs.func (c : ConfigRegs) (ch : Chan) : Nibble := (c.chan ch).extractLsb' 0 4

/-- CFG_CHANc.VCP (R52). -/
def ConfigRegs.vcp (c : ConfigRegs) (ch : Chan) : Bool := (c.chan ch).getLsbD 8

/-- CFG_CHANc.RS485 (R52). -/
def ConfigRegs.rs485 (c : ConfigRegs) (ch : Chan) : Bool := (c.chan ch).getLsbD 9

/-- CFG_CHANc.HICUR (R52). -/
def ConfigRegs.hicur (c : ConfigRegs) (ch : Chan) : Bool := (c.chan ch).getLsbD 10

/-- CBUS[k] (R53): bits `[8*(k mod 4)+7 : 8*(k mod 4)]` of register `k // 4`. -/
def ConfigRegs.cbusCode (c : ConfigRegs) (k : Nat) : Byte := (c.cbus.getD (k / 4) 0).extractLsb' (8 * (k % 4)) 8

/-- The bits of CFG_DESC that a field names (R46). -/
def descMask : Word := 0x003FFFFF

/-- The bits of CFG_POWER that a field names (R47). -/
def powerMask : Word := 0x000001FF

/-- The bits of CFG_CHIP that a field names (R48). -/
def chipMask : Word := 0x8000030F

/-- The bits of CFG_STRLEN that a field names (R49). -/
def strLenMask : Word := 0x007F7F7F

/-- The bits of CFG_GROUPg that a field names (R51). -/
def groupRegMask : Word := 0x000003FF

/-- The bits of CFG_CHANc that a field names (R52). -/
def chanMask : Word := 0x0000070F

/-- The bits of CFG_CBUSi that a field names (R53): eight for each of the slots `4i .. 4i + 3` below MAX_CBUS. -/
def cbusRegMask (maxCbus i : Nat) : Word := BitVec.ofNat 32 (2 ^ (8 * min 4 (maxCbus - 4 * i)) - 1)

end Sys2Proof.Machine
end

