-- ==== Sys2Proof/Machine/Ops.lean ====
section
/-! DEFINITION. The named operations every meaning is written with: words, memory, the RAMs, the image, the string-table
cursor, accepting a command and ending one (the ILE's whole exception mechanism, 60_exceptions.md R306, R308). -/

namespace Sys2Proof.Machine

/-- `rotl16(x)` (00_scope.md R18). -/
def rotl16 (x : Half) : Half := (x <<< 1) ||| (x >>> 15)

/-- One fold of the checksum (42_checksum.md R264). -/
def fold16 (ck w : Half) : Half := rotl16 (ck ^^^ w)

/-- A flag as a byte: 0x00 or 0x01. -/
def flagByte (b : Bool) : Byte := if b then 0x01 else 0x00

/-- `trunc_8(n)` of a number (00_scope.md R16). -/
def byteOf (n : Nat) : Byte := BitVec.ofNat 8 n

/-! ### Memory -/

/-- The known byte at `a`, if there is one. -/
def Memory.read? : Memory → Nat → Option Byte
  | [], _ => none
  | (b, w) :: m, a => if a = b then some w else read? m a

/-- Store `v` at `a`, keeping the addresses strictly rising. -/
def Memory.write : Memory → Nat → Byte → Memory
  | [], a, v => [(a, v)]
  | (b, w) :: m, a, v =>
    if a < b then (a, v) :: (b, w) :: m
    else if a = b then (a, v) :: m
    else (b, w) :: write m a v

/-- Every address of `m` is above `a`. -/
def Memory.above (a : Nat) (m : Memory) : Bool := m.all fun c => a < c.1

/-- The canonical form: addresses strictly rising. (An unlisted address holds no known value, so no entry can equal what it
reads as; log 1.) -/
def Memory.wf : Memory → Bool
  | [] => true
  | (b, _) :: m => Memory.above b m && wf m

/-- Every address of `m` is below `cap`, the RAM's size. -/
def Memory.within (cap : Nat) (m : Memory) : Bool := m.all fun c => c.1 < cap

/-! ### The RAMs -/

/-- The RAM `r`. -/
def State.ram (s : State) : RamId → Memory
  | .strM => s.strM
  | .strP => s.strP
  | .strS => s.strS
  | .udb => s.udb
  | .img => s.img

/-- Replace the RAM `r`. -/
def State.setRam (s : State) : RamId → Memory → State
  | .strM, m => { s with strM := m }
  | .strP, m => { s with strP := m }
  | .strS, m => { s with strS := m }
  | .udb, m => { s with udb := m }
  | .img, m => { s with img := m }

/-- Which unspecified contents RAM `r` holds: only IMG ever loses its contents after power-on (70_reset_and_hazards.md R341). -/
def State.ramGen (s : State) : RamId → Nat
  | .img => s.imgGen
  | _ => 0

/-- Byte `a` of RAM `r`; a byte that holds no known value reads as a free value (70_reset_and_hazards.md R341; log 1). -/
def State.ramByte (s : State) (r : RamId) (a : Nat) : Byte :=
  ((s.ram r).read? a).getD (Config.powerOnByte r (s.ramGen r) a)

/-- Write byte `a` of RAM `r`. -/
def State.putRam (s : State) (r : RamId) (a : Nat) (v : Byte) : State := s.setRam r ((s.ram r).write a v)

/-- `MemRead(a, 1)` (00_scope.md R19). -/
def State.imgByte (s : State) (a : ImgAddr) : Byte := s.ramByte .img a.toNat

/-- `MemWrite(a, 1, v)` (00_scope.md R19). -/
def State.putImg (s : State) (a : ImgAddr) (v : Byte) : State := { s with img := s.img.write a.toNat v }

/-- `MemRead(a, 2)`: little-endian (00_scope.md R19; 20_memory.md R102). -/
def State.imgHalf (s : State) (a : ImgAddr) : Half := s.imgByte (a + 1) ++ s.imgByte a

/-- `MemWrite(a, 2, v)`: the low byte at the lower address (00_scope.md R19; 20_memory.md R102). -/
def State.putImgHalf (s : State) (a : ImgAddr) (v : Half) : State :=
  (s.putImg a (v.extractLsb' 0 8)).putImg (a + 1) (v.extractLsb' 8 8)

/-- A masked read-modify-write of one image byte: bits outside `mask` keep their value (40_build.md R191). -/
def State.rmwImg (s : State) (a : ImgAddr) (mask bits : Byte) : State :=
  s.putImg a ((s.imgByte a &&& ~~~mask) ||| (bits &&& mask))

/-! ### The string-table cursor -/

/-- `CUR & (SZ - 1)` (40_build.md R179). -/
def State.cursorAddr (s : State) : ImgAddr := (s.cur &&& BitVec.ofNat 16 (s.sz.bytes - 1)).setWidth 8

/-- `put(b)`: write at the masked cursor and advance the raw one (40_build.md R179). -/
def State.putNext (s : State) (b : Byte) : State := { s.putImg s.cursorAddr b with cur := s.cur + 1 }

/-- `putdesc(STR, n)` (40_build.md R180). -/
def State.putDesc (s : State) (r : RamId) (n : Nat) : State :=
  (List.range n).foldl (fun t j => (t.putNext (t.ramByte r j)).putNext 0x00)
    ((s.putNext (byteOf (2 * n + 2))).putNext 0x03)

/-! ### Accepting and ending a command -/

/-- A command word is accepted (60_exceptions.md R300, R303; 30_encoding.md R131). DEV_CHIPID counts as stable from here
(70_reset_and_hazards.md R356). -/
def State.accept (s : State) (w : Word) : State :=
  { s with cmd := w, cmdv := .ofWord w, status := .accepted, chipidMoved := false }

/-- A command ends, with an error or without: `raise Error(code)` and the normal end are this one operation
(60_exceptions.md R306). It saves and restores nothing (R308). -/
def State.endWith (s : State) (code : ErrorCode) : State :=
  { s with status := s.status.ended code, phase := .idle, rdwReq := false }

/-- `warn W_x` (00_scope.md R20). -/
def State.warn (s : State) (w : Warning) : State := { s with status := s.status.warn w }

/-- `phase <- P` (00_scope.md R20). -/
def State.goto (s : State) (p : Phase) : State := { s with phase := p }

/-- A host write while BUSY = 1 is dropped and sets HOST_VIOL (10_state.md R40). -/
def State.dropWrite (s : State) : State := { s with status := s.status.violated }

/-- The DONE output, a level equal to STATUS.DONE (10_state.md R65). -/
def State.doneOut (s : State) : Bool := s.status.done

end Sys2Proof.Machine
end

