-- ==== Sys2Proof/Machine/Bus.lean ====
section
/-! DEFINITION. The host bus (10_state.md R30..R56), the reset input (70_reset_and_hazards.md R340..R342) and the DEV_CHIPID
input (10_state.md R63). -/

namespace Sys2Proof.Machine

/-- What a word of the register map is (10_state.md R31). `k` numbers the words of a RAM window. -/
inductive BusTarget
  | cmd | status | uarea | cksum | encres | imgSize
  | cfgId | cfgDesc | cfgPower | cfgChip | cfgStrLen | cfgUd
  | group (g : Fin 8)
  | chan (c : Fin 4)
  | cbus (i : Fin 3)
  | window (r : RamId) (k : Nat)
  | unmapped
  deriving DecidableEq, Repr

/-- The register map (10_state.md R31), by byte address, at the largest capacities it can hold. -/
def busTarget (a : BusAddr) : BusTarget :=
  let A := 4 * a.toNat
  if A = 0x000 then .cmd
  else if A = 0x004 then .status
  else if A = 0x008 then .uarea
  else if A = 0x00C then .cksum
  else if A = 0x010 then .encres
  else if A = 0x014 then .imgSize
  else if A = 0x020 then .cfgId
  else if A = 0x024 then .cfgDesc
  else if A = 0x028 then .cfgPower
  else if A = 0x02C then .cfgChip
  else if A = 0x030 then .cfgStrLen
  else if A = 0x034 then .cfgUd
  else if 0x040 ≤ A ∧ A < 0x060 then .group (Fin.ofNat 8 ((A - 0x040) / 4))
  else if 0x060 ≤ A ∧ A < 0x070 then .chan (Fin.ofNat 4 ((A - 0x060) / 4))
  else if 0x070 ≤ A ∧ A < 0x07C then .cbus (Fin.ofNat 3 ((A - 0x070) / 4))
  else if 0x100 ≤ A ∧ A < 0x180 then .window .strM ((A - 0x100) / 4)
  else if 0x180 ≤ A ∧ A < 0x200 then .window .strP ((A - 0x180) / 4)
  else if 0x200 ≤ A ∧ A < 0x280 then .window .strS ((A - 0x200) / 4)
  else if 0x300 ≤ A ∧ A < 0x400 then .window .udb ((A - 0x300) / 4)
  else if 0x400 ≤ A ∧ A < 0x500 then .window .img ((A - 0x400) / 4)
  else .unmapped

/-- The word stands in the map at these capacities (00_scope.md R12; log 23): the registers of MAX_GROUPS groups, MAX_CHAN
channels and MAX_CBUS CBUS slots, and the windows of UD_CAP and IMG_CAP bytes. -/
def BusTarget.standsAt (c : Capacities) : BusTarget → Bool
  | .group g => g.val < c.maxGroups
  | .chan i => i.val < c.maxChan
  | .cbus i => 4 * i.val < c.maxCbus
  | .window .udb k => 4 * k + 3 < c.udCap
  | .window .img k => 4 * k + 3 < c.imgCap
  | _ => true

/-- What a bus word is on this machine (10_state.md R31; 00_scope.md R12). -/
def State.busTarget (s : State) (a : BusAddr) : BusTarget :=
  if (Machine.busTarget a).standsAt s.params.caps then Machine.busTarget a else .unmapped

/-- The four bytes of window word `k`, little-endian (10_state.md R54..R56; 20_memory.md R103). -/
def State.windowWord (s : State) (r : RamId) (k : Nat) : Word :=
  (s.ramByte r (4 * k + 3) ++ s.ramByte r (4 * k + 2) ++ s.ramByte r (4 * k + 1) ++ s.ramByte r (4 * k)
    : BitVec (8 + 8 + 8 + 8))

/-- The current value of a word of the map (10_state.md R32..R56; 20_memory.md R114). -/
def State.busValue (s : State) : BusTarget → Word
  | .cmd => s.cmd
  | .status => s.status.toWord
  | .uarea => s.uarea.setWidth 32
  | .cksum => s.cksum.setWidth 32
  | .encres => s.encres.setWidth 32
  | .imgSize => s.imgSize.setWidth 32
  | .cfgId => s.cfg.id
  | .cfgDesc => s.cfg.desc
  | .cfgPower => s.cfg.power
  | .cfgChip => s.cfg.chip
  | .cfgStrLen => s.cfg.strLen
  | .cfgUd => s.cfg.ud
  | .group g => s.cfg.groups[g]
  | .chan c => s.cfg.chans[c]
  | .cbus i => s.cfg.cbus[i]
  | .window r k => s.windowWord r k
  | .unmapped => 0

/-- A word of the IMG window. -/
def BusTarget.isImg : BusTarget → Bool
  | .window .img _ => true
  | _ => false

/-- A host read: what it returns goes to the model's field `hostRdata`, and nothing else changes (10_state.md R32), but for
the number of the next free value after an IMG read while BUSY = 1 (20_memory.md R114, log 9). While RST is asserted reads
return 0 (70_reset_and_hazards.md R340). -/
def hostRead (a : BusAddr) (s : State) : State :=
  if s.rst then { s with hostRdata := 0 }
  else if s.status.busy && (s.busTarget a).isImg then
    { s with hostRdata := Config.busyImgRead s.draws, draws := s.draws + 1 }
  else { s with hostRdata := s.busValue (s.busTarget a) }

/-- Write a configuration register: only the bits a field names change (10_state.md R32, R45..R53). -/
def ConfigRegs.write (c : ConfigRegs) (caps : Capacities) (w : Word) : BusTarget → ConfigRegs
  | .cfgId => { c with id := w }
  | .cfgDesc => { c with desc := w &&& descMask }
  | .cfgPower => { c with power := w &&& powerMask }
  | .cfgChip => { c with chip := w &&& chipMask }
  | .cfgStrLen => { c with strLen := w &&& strLenMask }
  | .cfgUd => { c with ud := w }
  | .group g => { c with groups := c.groups.set g.val (w &&& groupRegMask) g.isLt }
  | .chan i => { c with chans := c.chans.set i.val (w &&& chanMask) i.isLt }
  | .cbus i => { c with cbus := c.cbus.set i.val (w &&& cbusRegMask caps.maxCbus i.val) i.isLt }
  | _ => c

/-- Write window word `k` of RAM `r`: byte `4k+j` is bits [8j+7:8j] (10_state.md R54..R56). -/
def State.putWindow (s : State) (r : RamId) (k : Nat) (w : Word) : State :=
  (((s.putRam r (4 * k) (w.extractLsb' 0 8)).putRam r (4 * k + 1) (w.extractLsb' 8 8)).putRam r (4 * k + 2)
    (w.extractLsb' 16 8)).putRam r (4 * k + 3) (w.extractLsb' 24 8)

/-- A host write to a word that is not CMD: ignored while RST is asserted (70_reset_and_hazards.md R340), dropped while
BUSY = 1 (10_state.md R40), ignored by RO registers and unmapped words (10_state.md R31, R32). -/
def hostWrite (a : BusAddr) (w : Word) (s : State) : State :=
  if s.rst then s
  else if s.status.busy then s.dropWrite
  else
    match s.busTarget a with
    | .window r k => s.putWindow r k w
    | t => { s with cfg := s.cfg.write s.params.caps w t }

/-- RST is asserted: every register takes its reset value (70_reset_and_hazards.md R340, 10_state.md R66); the string RAMs
and UDB keep their contents, and IMG does unless BUSY was 1, when every byte becomes unspecified (R341, log 12). The device
read is abandoned (R342). The platform's inputs and the model's own fields are not registers and stay. -/
def assertReset (s : State) : State :=
  { State.reset with
    strM := s.strM, strP := s.strP, strS := s.strS, udb := s.udb
    img := if s.status.busy then [] else s.img
    imgGen := if s.status.busy then s.imgGen + 1 else s.imgGen
    rst := true
    devChipid := s.devChipid, draws := s.draws, hostRdata := s.hostRdata, params := s.params, inputs := s.inputs }

/-- The RST input changes level. -/
def resetInput (asserted : Bool) (s : State) : State :=
  if asserted then assertReset s else { s with rst := false }

/-- The platform drives DEV_CHIPID; a change while a command runs is remembered until step 1 has sampled it
(70_reset_and_hazards.md R356, log 8). -/
def driveChipid (value : Byte) (s : State) : State :=
  { s with devChipid := value, chipidMoved := s.chipidMoved || (s.status.busy && value != s.devChipid) }

end Sys2Proof.Machine
end

