-- ==== Sys2Proof/Machine/ChecksumEngine.lean ====
section
/-! DEFINITION. The checksum accumulator (42_checksum.md R261..R268) and its device reads (10_state.md R64), one atomic step
at a time (70_reset_and_hazards.md R360). BUILD step 9 and CHECKSUM run it. -/

namespace Sys2Proof.Machine

/-- CMDV.OP of BUILD (30_encoding.md R132). -/
def opBuild : Nibble := 1

/-- CMDV.OP of ENCODE. -/
def opEncode : Nibble := 2

/-- CMDV.OP of CHECKSUM. -/
def opChecksum : Nibble := 3

/-- The variant code of the running command: CFG_CHIP.VARIANT for BUILD (no host write can change it while BUSY = 1,
20_memory.md R117; log 21), CMDV.VAR for CHECKSUM. -/
def State.runCode (s : State) : Nibble := if s.cmdv.op = opBuild then s.cfg.variantCode else s.cmdv.var

/-- The running command is on 230X. -/
def State.on230X (s : State) : Bool := Variant.ofCode? s.runCode == some .ft230X

/-- Seed and enter the loop (42_checksum.md R261). -/
def State.seedChecksum (s : State) : State := { s with ck := s.params.tables.ckSeed, wi := 0, phase := .kLoop }

/-- The loop bound `SZ/2 - 1` (42_checksum.md R263). -/
def State.wordBound (s : State) : Nat := s.sz.bytes / 2 - 1

/-- Fold one word and go on to the next index (42_checksum.md R264, R267). -/
def State.foldWord (s : State) (w : Half) : State := { s with ck := fold16 s.ck w, wi := s.wi + 1 }

/-- The request of `DevReadWord(WI)` (10_state.md R64; 42_checksum.md R266). -/
def State.requestWord (s : State) : State :=
  { s with rdwIdx := s.wi, rdwReq := true, rdwWait := true, phase := .kWait }

/-- The answer of `DevReadWord`: the request falls, and the word, or FALLBACK_WORD with a warning, is folded
(10_state.md R64; 42_checksum.md R267). One atomic step with its fold: no register holds the word between (log 4). -/
def State.takeAnswer (s : State) (data : Half) (err : Bool) : State :=
  let t := { s with rdwReq := false, rdwWait := false, phase := .kLoop }
  if err then (t.warn .rdFail).foldWord t.params.fallbackWord else t.foldWord data

/-- The end of the procedure: BUILD writes the trailer and CKSUM and goes to step 10 (40_build.md R203; 42_checksum.md R268);
CHECKSUM writes CKSUM and ends (42_checksum.md R260). -/
def State.finishChecksum (s : State) : State :=
  if s.cmdv.op = opBuild then
    { s.putImgHalf (BitVec.ofNat 8 (s.sz.bytes - 2)) s.ck with cksum := s.ck, phase := .b10 }
  else { s with cksum := s.ck }.endWith .none

/-- One turn of the loop of 42_checksum.md R267: the bound, the 230X jump, a live read's request, or one fold. -/
def State.checksumStep (s : State) : State :=
  if s.wi.toNat < s.wordBound then
    if s.on230X && s.wi.toNat == s.params.tables.skipLo then
      { s with wi := BitVec.ofNat 8 s.params.tables.skipHi }
    else if s.on230X && (s.params.tables.liveLo ≤ s.wi.toNat && s.wi.toNat < s.params.tables.liveHi) then
      s.requestWord
    else s.foldWord (s.imgHalf (2 * s.wi))
  else s.finishChecksum

end Sys2Proof.Machine
end

