-- ==== Sys2Proof/Machine/BuildSteps.lean ====
section
/-! DEFINITION. The phases of BUILD, B_CHECK and B1..B10, each one atomic step (40_build.md R170..R204). -/

namespace Sys2Proof.Machine

/-- B_CHECK: the configuration is present, then the variant is known (40_build.md R170). -/
def buildCheck (s : State) : State :=
  if s.cfg.cfgValid = false then s.endWith .noConfiguration
  else
    match Variant.ofCode? s.cfg.variantCode with
    | none => s.endWith .unknownChip
    | some _ => s.goto .b1

/-- DEV_CHIPID sampled into CHIPID (40_build.md R172); a free value if the input moved since acceptance
(70_reset_and_hazards.md R356, log 8). -/
def State.sampleChipid (s : State) : State :=
  if s.chipidMoved then { s with chipid := Config.unstableChipid s.draws, draws := s.draws + 1 }
  else { s with chipid := s.devChipid }

/-- A test of the SIZE table holds of a configuration and a sampled chip identifier (00_scope.md R12). -/
def sizeTestHolds (t : SourceTables) (c : ConfigRegs) (chipid : Byte) : SizeTest → Bool
  | .variant v => Variant.ofCode? c.variantCode == some v
  | .chipid id => chipid == id
  | .bigChipid => t.bigChipids.contains chipid
  | .overridden size256 => c.sizeOverride == some size256

/-- `SIZE(v, chipid, cfg)` (00_scope.md R12; 40_build.md R171): the first case whose tests all hold decides (log 24). -/
def imageSizeFor (t : SourceTables) (c : ConfigRegs) (chipid : Byte) : ImgSize :=
  match t.size.cases.find? fun k => k.tests.all (sizeTestHolds t c chipid) with
  | some k => .ofBytes k.size
  | none => .ofBytes t.size.otherwise

/-- B1, step 1: the image size (40_build.md R171, R172). -/
def buildSize (s : State) : State :=
  let t := s.sampleChipid
  { t with sz := imageSizeFor t.params.tables t.cfg t.chipid, phase := .b2 }

/-- `BASE[v] - 2 * (m + p + s)`, signed (40_build.md R173). -/
def userArea (p : Params) (v : Variant) (c : ConfigRegs) : Int :=
  (p.base v : Int) - 2 * ((c.mfrLen + c.prodLen + c.serLen : Nat) : Int)

/-- B2, step 2: the string budget (40_build.md R173, R174). -/
def buildBudget (v : Variant) (s : State) : State :=
  let t := { s with ua := userArea s.params v s.cfg }
  if t.ua < 0 then t.endWith .sizeExceeded else t.goto .b3

/-- Step 3 leaves byte `a` alone: the factory window of 230X (40_build.md R175). -/
def keptByStep3 (p : Params) (v : Variant) (a : Nat) : Bool :=
  v == .ft230X && (p.tables.keepLo ≤ a && a < p.tables.keepHi)

/-- B3, step 3: zero fill (40_build.md R175, R176). -/
def buildZero (v : Variant) (s : State) : State :=
  ((List.range s.sz.bytes).foldl
    (fun t a => if keptByStep3 s.params v a then t else t.putImg (BitVec.ofNat 8 a) 0x00) s).goto .b4

/-- The descriptor flag byte (30_encoding.md R145). -/
def flagsByte (c : ConfigRegs) : Byte :=
  0x80 ||| (flagByte c.selfPowered <<< 6) ||| (flagByte c.remoteWakeup <<< 5)

/-- The max-power byte (30_encoding.md R147). -/
def powerByte (c : ConfigRegs) : Byte := byteOf (c.maxPower / 2)

/-- The configuration byte (30_encoding.md R146). -/
def cfgByte (c : ConfigRegs) : Byte := flagByte c.isoIn ||| (flagByte c.isoOut <<< 1)

/-- B4, step 4: the fixed fields (40_build.md R177, R178). -/
def buildFixed (v : Variant) (s : State) : State :=
  let t := ((s.putImgHalf 0x02 s.cfg.vid).putImgHalf 0x04 s.cfg.pid).putImgHalf s.params.tables.offRel s.cfg.rel
  let t := (t.putImg s.params.tables.offFlags (flagsByte s.cfg)).putImg s.params.tables.offPower (powerByte s.cfg)
  (if v = .am ∨ v = .ft230X then t else t.putImg s.params.tables.offCfg (cfgByte s.cfg)).goto .b5

/-- `MfrSlot(CUR)` (40_build.md R181, R183). -/
def State.mfrSlot (s : State) : Byte :=
  match s.params.mfrOffsetMode with
  | .raw => s.cur.setWidth 8
  | .masked => s.cursorAddr

/-- `trunc_8(CUR | 0x80)` (40_build.md R181). -/
def State.markedSlot (s : State) : Byte := (s.cur ||| 0x80).setWidth 8

/-- One string with its slots, in the order of 40_build.md R182: offset slot, descriptor, length slot. -/
def State.putString (s : State) (offSlot lenSlot : ImgAddr) (slot : Byte) (r : RamId) (n : Nat) : State :=
  ((s.putImg offSlot slot).putDesc r n).putImg lenSlot (byteOf (2 * n + 2))

/-- B5, step 5: the string table (40_build.md R179..R184). -/
def buildStrings (v : Variant) (s : State) : State :=
  let t := { s with cur := s.params.strStart v }
  let t := t.putString 0x0E 0x0F t.mfrSlot .strM s.cfg.mfrLen
  let t := t.putString 0x10 0x11 t.markedSlot .strP s.cfg.prodLen
  let t := t.putString 0x12 0x13 t.markedSlot .strS s.cfg.serLen
  t.goto .b6

/-- Step 6 writes a trailer on `v`: every variant newer than BM (40_build.md R185). -/
def hasPnp (v : Variant) : Bool := !(v == .am || v == .bm)

/-- B6, step 6: the PnP trailer (40_build.md R185; 30_encoding.md R150). -/
def buildPnp (v : Variant) (s : State) : State :=
  (if hasPnp v then ((s.putNext 0x02).putNext 0x03).putNext (flagByte s.cfg.isNotPnp) else s).goto .b7

/-- `FieldValue(kind, chan)` (40_build.md R192). -/
def State.fieldValue (s : State) (v : Variant) : FieldKind → Byte
  | .chType ch => (encodeChannel s.params.family2232 (s.cfg.func ch) v.code).setWidth 8
  | .chVcp ch => flagByte (s.cfg.vcp ch)
  | .chHicur ch => flagByte (s.cfg.hicur ch)
  | .chRs485 ch => flagByte (s.cfg.rs485 ch)
  | .useSerial => flagByte s.cfg.useSerial
  | .chipId => s.chipid
  | .const k => k

/-- One layout entry (40_build.md R191). -/
def State.applyEntry (v : Variant) (s : State) (e : LayoutEntry) : State :=
  s.rmwImg e.off e.mask (s.fieldValue v e.kind <<< e.shift.val)

/-- The drive code of a group, clamped to 3 (40_build.md R187). -/
def clampDrive (d : Byte) : Byte := if 3 < d.toNat then 3 else d

/-- The group nibble (30_encoding.md R148). -/
def groupNibble (c : ConfigRegs) (g : Nat) : Byte :=
  clampDrive (c.drive g) ||| (flagByte (c.slowSlew g) <<< 2) ||| (flagByte (c.schmitt g) <<< 3)

/-- One group (40_build.md R187). -/
def State.applyGroup (v : Variant) (s : State) (g : Nat) : State :=
  let t := if 3 < (s.cfg.drive g).toNat then s.warn .drive else s
  t.rmwImg (byteOf (s.params.groupBase v + g / 2)) (groupMask g) (groupNibble s.cfg g <<< (4 * (g % 2)))

/-- The code written for a CBUS pin (40_build.md R193). -/
def cbusValue (q : VariantParams) (code : Byte) : Byte :=
  if q.cbusMax < code.toNat then byteOf q.cbusDefault else code

/-- One CBUS pin with its slot (40_build.md R193). -/
def State.applyCbus (v : Variant) (s : State) (pin : CbusSlot × Nat) : State :=
  let q := s.params.variant v
  let code := s.cfg.cbusCode pin.2
  let t := if q.cbusMax < code.toNat then s.warn .cbus else s
  t.rmwImg pin.1.off (cbusMask q.cbusW pin.1.shift) (cbusValue q code <<< pin.1.shift)

/-- Pass 1 of step 7: the layout descriptor (40_build.md R186, R190). -/
def State.layoutPass (v : Variant) (s : State) : State := (s.params.variant v).layout.foldl (State.applyEntry v) s

/-- Pass 2 of step 7: the groups (40_build.md R186, R187). -/
def State.groupPass (v : Variant) (s : State) : State :=
  (List.range (s.params.nGroups v)).foldl (State.applyGroup v) s

/-- Pass 3 of step 7: the CBUS pins (40_build.md R186, R193). -/
def State.cbusPass (v : Variant) (s : State) : State :=
  (s.params.variant v).cbusSlots.zipIdx.foldl (State.applyCbus v) s

/-- B7, step 7: the chip-specific fields (40_build.md R186..R197). -/
def buildChip (v : Variant) (s : State) : State :=
  (((s.layoutPass v).groupPass v).cbusPass v).goto .b8

/-- Step 8's warnings (40_build.md R200): the offset is below free_start; the end reaches free_end. -/
def State.userWarnings (v : Variant) (s : State) : State :=
  let t := if s.cfg.udOffset < (s.params.variant v).freeStart then s.warn .udStart else s
  if (s.params.strStart v).toNat ≤ s.cfg.udOffset + s.cfg.udSize then t.warn .udOvl else t

/-- The copy of step 8 (40_build.md R201). -/
def State.copyUser (s : State) : State :=
  (List.range s.cfg.udSize).foldl
    (fun t j => t.putImg (BitVec.ofNat 8 (s.cfg.udOffset + j)) (t.ramByte .udb j)) s

/-- B8, step 8: the user data (40_build.md R199..R202). -/
def buildUser (v : Variant) (s : State) : State :=
  if s.cfg.udSize = 0 then s.goto .b9
  else
    let t := s.userWarnings v
    if s.sz.bytes < s.cfg.udOffset + s.cfg.udSize then t.endWith .sizeExceeded else t.copyUser.goto .b9

/-- B10, step 10: the results (40_build.md R204). -/
def buildResults (s : State) : State :=
  { s with uarea := BitVec.ofInt 16 s.ua, imgSize := BitVec.ofNat 9 s.sz.bytes,
           status := s.status.markBuilt }.endWith .none

end Sys2Proof.Machine
end

