-- ==== Sys2Proof/Machine/Sequencer.lean ====
section
/-! DEFINITION. The sequencer: one atomic step by PHASE (70_reset_and_hazards.md R360), running a command until it ends, waits
for the device, or the next input lands, and issuing a command word (60_exceptions.md R300). -/

namespace Sys2Proof.Machine

/-- The variant of the running BUILD, for the phases after its check. A code that names none is met in no run
(`State.coherent`); it would end the command as B_CHECK does. -/
def State.withVariant (s : State) (k : Variant → State → State) : State :=
  match Variant.ofCode? s.cfg.variantCode with
  | none => s.endWith .unknownChip
  | some v => k v s

/-- The first pending input has no sequencer step left to wait for. -/
def State.inputDue (s : State) : Bool :=
  match s.inputs with
  | a :: _ => a.after == 0
  | [] => false

/-- The first pending input is the device's answer. -/
def State.ackNext (s : State) : Bool :=
  match s.inputs with
  | ⟨_, .deviceAck _ _⟩ :: _ => true
  | _ => false

/-- The sequencer has a step to take: a command is running and, in K_WAIT, the device answers; elsewhere, no input lands
first (log 2). -/
def State.canRun (s : State) : Bool := s.status.busy && (if s.phase = .kWait then s.ackNext else !s.inputDue)

/-- One sequencer step passes for the first pending input. -/
def State.countDown (s : State) : State :=
  { s with inputs := match s.inputs with
    | a :: rest => { a with after := a.after - 1 } :: rest
    | [] => [] }

/-- K_WAIT: an answer, if it is the next input, is taken (10_state.md R64); without one the sequencer waits. -/
def State.waitStep (s : State) : State :=
  match s.inputs with
  | ⟨_, .deviceAck data err⟩ :: rest => { s with inputs := rest }.takeAnswer data err
  | _ => s

/-- E_RUN: the lookup, and the end of ENCODE (41_channel_encoder.md R240). -/
def encodeRun (s : State) : State :=
  { s with encres := encodeChannel s.params.family2232 s.cmdv.fn s.cmdv.var }.endWith .none

/-- What the sequencer does in its phase (10_state.md R58; 40_build.md R170). -/
def State.act (s : State) : State :=
  match s.phase with
  | .idle => s
  | .bCheck => buildCheck s
  | .b1 => buildSize s
  | .b2 => s.withVariant buildBudget
  | .b3 => s.withVariant buildZero
  | .b4 => s.withVariant buildFixed
  | .b5 => s.withVariant buildStrings
  | .b6 => s.withVariant buildPnp
  | .b7 => s.withVariant buildChip
  | .b8 => s.withVariant buildUser
  | .b9 => s.seedChecksum
  | .b10 => buildResults s
  | .kLoop => s.checksumStep
  | .kWait => s.waitStep
  | .eRun => encodeRun s

/-- One atomic step of the sequencer (70_reset_and_hazards.md R360). -/
def State.tick (s : State) : State := if s.phase = .kWait then s.act else s.countDown.act

/-- At most `n` atomic steps, as long as the sequencer has one to take. -/
def State.run : Nat → State → State
  | 0, s => s
  | n + 1, s => if s.canRun then run n s.tick else s

/-- More steps than any command takes: at most 139 without device reads (70_reset_and_hazards.md R361), fewer than 150 with
sixteen; a command that needed more would go on at the next step. -/
def seqFuel : Nat := 300

/-- A host write of `w` to CMD (60_exceptions.md R300; 10_state.md R33, R40; 70_reset_and_hazards.md R340): ignored while RST
is asserted, dropped while BUSY = 1, refused with an ill-formed parameter set (40_build.md R194), else accepted; then
`start` sets the command's first phase and the sequencer runs. -/
def issue (w : Word) (start : State → State) (s : State) : Host.Outcome State Fault Refusal :=
  if s.rst then .next s
  else if s.status.busy then .next s.dropWrite
  else if s.params.check then .next ((start (s.accept w)).run seqFuel)
  else .refused .illFormedParameters

/-- An illegal command word: accepted, and ended at once with BadCommand (30_encoding.md R134; 60_exceptions.md R303). -/
def issueIllegal (w : Word) (s : State) : Host.Outcome State Fault Refusal :=
  issue w (fun t => t.endWith .badCommand) s

/-- Where a running command can stand (10_state.md R58): its PHASE is one its opcode visits, its variant is known from the
check on, and the request is out exactly in K_WAIT. -/
def State.coherent (s : State) : Bool :=
  match s.phase with
  | .idle => false
  | .bCheck => s.cmdv.op == opBuild && !s.rdwWait && !s.rdwReq
  | .eRun => s.cmdv.op == opEncode && !s.rdwWait && !s.rdwReq
  | .kLoop => (s.cmdv.op == opBuild || s.cmdv.op == opChecksum) && (Variant.ofCode? s.runCode).isSome
      && !s.rdwWait && !s.rdwReq
  | .kWait => (s.cmdv.op == opBuild || s.cmdv.op == opChecksum) && (Variant.ofCode? s.runCode).isSome
      && s.rdwWait && s.rdwReq
  | _ => s.cmdv.op == opBuild && (Variant.ofCode? s.runCode).isSome && !s.rdwWait && !s.rdwReq

end Sys2Proof.Machine
end

