-- ==== Sys2Proof/Machine/Build.lean ====
section
/-! DEFINITION. BUILD (40_build.md R170). -/

namespace Sys2Proof.Machine

/-- BUILD enters B_CHECK (40_build.md R170). -/
def startBuild (s : State) : State := s.goto .bCheck

/-- BUILD: the whole command, from acceptance on; its phases are in Machine/BuildSteps.lean. -/
def execBuild (s : State) : Host.Outcome State Fault Refusal := issue (encode .build) startBuild s

end Sys2Proof.Machine
end

