-- ==== Sys2Proof/Machine/Checksum.lean ====
section
/-! DEFINITION. CHECKSUM (42_checksum.md R260). -/

namespace Sys2Proof.Machine

/-- CHECKSUM's check and size, at acceptance (DEDUCED: R58 gives it no phase of its own, log 4), then the seeded loop
(42_checksum.md R260, R261). -/
def startChecksum (s : State) : State :=
  match Variant.ofCode? s.cmdv.var with
  | none => s.endWith .unknownChip
  | some _ => { s with sz := ImgSize.ofBit s.cmdv.szb }.seedChecksum

/-- CHECKSUM: the whole command; its procedure is in Machine/ChecksumEngine.lean. -/
def execChecksum (var : Nibble) (szb : Bool) (s : State) : Host.Outcome State Fault Refusal :=
  issue (encode (.checksum var szb)) startChecksum s

end Sys2Proof.Machine
end

