-- ==== Sys2Proof/Machine/Encode.lean ====
section
/-! DEFINITION. ENCODE (41_channel_encoder.md R240). -/

namespace Sys2Proof.Machine

/-- ENCODE enters E_RUN (41_channel_encoder.md R240). -/
def startEncode (s : State) : State := s.goto .eRun

/-- ENCODE: the whole command; its one step is `encodeRun`. -/
def execEncode (var fn : Nibble) (s : State) : Host.Outcome State Fault Refusal :=
  issue (encode (.encode var fn)) startEncode s

end Sys2Proof.Machine
end

