-- ==== Sys2Proof/Machine/Dispatch.lean ====
section
/-! DEFINITION. Which meaning each command has. -/

namespace Sys2Proof.Machine

def exec (i : Instr) (s : State) : Host.Outcome State Fault Refusal :=
  match i with
  | .build => Sys2Proof.Machine.execBuild s
  | .encode var fn => Sys2Proof.Machine.execEncode var fn s
  | .checksum var szb => Sys2Proof.Machine.execChecksum var szb s

end Sys2Proof.Machine
end

