-- ==== Sys2Proof/Machine/Arrive.lean ====
section
/-! DEFINITION. What one input does when it lands (10_state.md R30, R63; 70_reset_and_hazards.md R340, R360). A write to CMD is
the ILE's fetch: the word is decoded and its command executed. -/

namespace Sys2Proof.Machine

/-- A host write of `w` to CMD: the word is decoded and run (60_exceptions.md R300). -/
def writeCmd (w : Word) (s : State) : Host.Outcome State Fault Refusal :=
  match decode w with
  | .ok i => exec i s
  | .error _ => issueIllegal w s

/-- One input lands. An RDW_ACK that reaches this point answers no outstanding read and is ignored (R342; log 10). -/
def arrive (e : Input) (s : State) : Host.Outcome State Fault Refusal :=
  match e with
  | .hostWrite a w => if busTarget a = .cmd then writeCmd w s else .next (hostWrite a w s)
  | .hostRead a => .next (hostRead a s)
  | .reset asserted => .next (resetInput asserted s)
  | .chipId value => .next (driveChipid value s)
  | .deviceAck _ _ => .next s

/-- The running command goes on from where it stands, unless it stands where no command can (log 13). -/
def resume (s : State) : Host.Outcome State Fault Refusal :=
  if s.coherent then .next (s.run seqFuel) else .fault .incoherentSequencer

/-- The next input lands; with none, the ILE is idle or waits for the device, and nothing changes
(60_exceptions.md R327; 70_reset_and_hazards.md R352). -/
def landInput (s : State) : Host.Outcome State Fault Refusal :=
  match s.inputs with
  | [] => .next s
  | a :: rest => arrive a.input { s with inputs := rest }

/-- The host's write of command word `w` stands first among the inputs, and the ILE is ready to accept it. -/
def State.cmdPending (s : State) (w : Word) : State :=
  { s with rst := false, status := { s.status with busy := false }, inputs := ⟨0, .hostWrite 0 w⟩ :: s.inputs }

end Sys2Proof.Machine
end

