-- ==== Sys2Proof/Machine/Step.lean ====
section
/-! DEFINITION. One step of the machine: the running command goes on until it stops, or the next input lands. -/

namespace Sys2Proof.Machine

/-- One step (70_reset_and_hazards.md R360; log 3). -/
def step (s : State) : Host.Outcome State Fault Refusal :=
  if s.canRun then resume s else landInput s

/-- `s` with the word `w` as the next host write to CMD, where the machine finds its next instruction (10_state.md R33). -/
def State.withFetchWord (s : State) (nbits w : Nat) : State := s.cmdPending (BitVec.ofNat 32 (w % 2 ^ nbits))

end Sys2Proof.Machine
end

