-- ==== Sys2Proof/Safety.lean ====
section
/-! DEFINITION. The terms the claims use: when the ILE is ready for a command, what a command needs to run to its end, the
words a checksum folds, and the invariant of every run. -/

namespace Sys2Proof.Machine

/-- The ILE takes a command: RST released, BUSY = 0 (10_state.md R33), and a parameter set that 40_build.md R194 allows. -/
structure State.Ready (s : State) : Prop where
  rstLow : s.rst = false
  notBusy : s.status.busy = false
  paramsOk : s.params.check = true

/-! ### The device's answers -/

/-- The device's answers `(RDW_DATA, RDW_ERR)` as inputs: each lands while the request it answers is out, since no command
takes 100 steps between two requests. -/
def answerInputs (answers : List (Half × Bool)) : List Arrival :=
  answers.map fun a => ⟨100, .deviceAck a.1 a.2⟩

/-- How many device reads a checksum makes: sixteen on 230X at 256 bytes, else none (42_checksum.md R266, R270). -/
def readsNeeded (v : Variant) (sz : ImgSize) : Nat := if v = .ft230X ∧ sz = .b256 then 16 else 0

/-! ### The words a checksum folds -/

/-- Word `i` of the image: bytes `2i` (low) and `2i + 1` (high) (42_checksum.md R262). -/
def State.imageWord (s : State) (i : Nat) : Half :=
  s.imgByte (BitVec.ofNat 8 (2 * i + 1)) ++ s.imgByte (BitVec.ofNat 8 (2 * i))

/-- Words `lo .. hi - 1` of the image. -/
def State.imageWords (s : State) (lo hi : Nat) : List Half := (List.range' lo (hi - lo)).map s.imageWord

/-- The word folded for a device read: the data, or FALLBACK_WORD for a failed read (42_checksum.md R267). -/
def liveWord (p : Params) (answer : Half × Bool) : Half := if answer.2 then p.fallbackWord else answer.1

/-- The words of one run of the procedure at the default tables, in order (42_checksum.md R263, R265, R266, R270). -/
def State.foldedWords (s : State) (v : Variant) (sz : ImgSize) (answers : List (Half × Bool)) : List Half :=
  if v = .ft230X then
    match sz with
    | .b128 => s.imageWords 0x00 0x12
    | .b256 => s.imageWords 0x00 0x12 ++ answers.map (liveWord s.params) ++ s.imageWords 0x50 0x7F
  else s.imageWords 0 (sz.bytes / 2 - 1)

/-- The checksum of a list of words from a seed: `checksum = rotate_left_1(checksum XOR word)` for each (42_checksum.md R264). -/
def foldFrom (seed : Half) (words : List Half) : Half := words.foldl (fun ck w => (ck ^^^ w).rotateLeft 1) seed

/-- The checksum of the image (42_checksum.md R261..R267). -/
def State.checksumOf (s : State) (v : Variant) (sz : ImgSize) (answers : List (Half × Bool)) : Half :=
  foldFrom s.params.tables.ckSeed (s.foldedWords v sz answers)

/-- WI when the loop ends: the bound, or the index after the 230X jump that passes it (42_checksum.md R263, R265). -/
def finalIndex (v : Variant) (sz : ImgSize) : Byte :=
  match sz with
  | .b128 => if v = .ft230X then 0x40 else 63
  | .b256 => 127

/-! ### When a BUILD runs to its end -/

/-- The size step 1 gives (40_build.md R171). -/
def State.buildSize (s : State) : ImgSize := imageSizeFor s.params.tables s.cfg s.devChipid

/-- Nothing ends a BUILD early (40_build.md R170, Exceptions), and the tables and offsets with a default are at it. -/
structure State.BuildPasses (s : State) (v : Variant) : Prop where
  ready : s.Ready
  standard : s.params.tables = SourceTables.standard
  valid : s.cfg.cfgValid = true
  variant : Variant.ofCode? s.cfg.variantCode = some v
  budget : 0 ≤ userArea s.params v s.cfg
  userFits : s.cfg.udSize = 0 ∨ s.cfg.udOffset + s.cfg.udSize ≤ s.buildSize.bytes

/-- Nothing ends a BUILD early, and the inputs to come are just the answers to the device reads it makes. -/
structure State.BuildRuns (s : State) (v : Variant) (answers : List (Half × Bool)) : Prop extends s.BuildPasses v where
  answered : answers.length = readsNeeded v s.buildSize
  inputs : s.inputs = answerInputs answers

/-- The total of the three string lengths. -/
def ConfigRegs.totalLen (c : ConfigRegs) : Nat := c.mfrLen + c.prodLen + c.serLen

/-- `L`, the bytes steps 5 and 6 write (40_build.md R184). -/
def tableLength (v : Variant) (c : ConfigRegs) : Nat := 2 * c.totalLen + 6 + (if hasPnp v then 3 else 0)

/-- `s0`, the string table's first image byte (40_build.md R184). -/
def State.tableStart (s : State) (v : Variant) : Nat := (s.params.strStart v).toNat % s.buildSize.bytes

/-- The table is clean: no byte wraps and none reaches the trailer (40_build.md R184). -/
def State.CleanTable (s : State) (v : Variant) : Prop := s.tableStart v + tableLength v s.cfg ≤ s.buildSize.bytes - 2

/-- No bit that step 7 writes lies in the string table: 40_build.md R194 does not ask it of a layout. -/
def State.LayoutOffTable (s : State) (v : Variant) : Prop :=
  ∀ c ∈ s.params.claims v, c.2 ≠ 0 → c.1 < s.tableStart v ∨ s.tableStart v + tableLength v s.cfg ≤ c.1

/-- The descriptor of string `r` of `n` characters stands at image byte `start`, its first byte `2n + 2` (30_encoding.md R143). -/
def State.DescriptorAt (t : State) (start : Nat) (r : RamId) (n : Nat) : Prop :=
  t.imgByte (byteOf start) = byteOf (2 * n + 2) ∧ t.imgByte (byteOf (start + 1)) = 0x03
    ∧ ∀ j < n, t.imgByte (byteOf (start + 2 + 2 * j)) = t.ramByte r j ∧ t.imgByte (byteOf (start + 3 + 2 * j)) = 0x00

/-- No user data lands on image bytes `lo .. hi - 1` (40_build.md R201). -/
def State.UserDataOff (s : State) (lo hi : Nat) : Prop :=
  s.cfg.udSize = 0 ∨ s.cfg.udOffset + s.cfg.udSize ≤ lo ∨ hi ≤ s.cfg.udOffset

/-! ### The image, as the writes the rules list -/

/-- The last byte a list of writes stores at `a`: "a later write wins" (40_build.md R182). -/
def lastWrite (writes : List (Nat × Byte)) (a : Nat) : Option Byte := (writes.reverse.find? fun w => w.1 == a).map (·.2)

/-- Step 4's writes at the default offsets (40_build.md R177, R178). -/
def fixedWrites (v : Variant) (c : ConfigRegs) : List (Nat × Byte) :=
  [(0x02, byteOf c.vid.toNat), (0x03, byteOf (c.vid.toNat / 256)), (0x04, byteOf c.pid.toNat),
    (0x05, byteOf (c.pid.toNat / 256)), (0x06, byteOf c.rel.toNat), (0x07, byteOf (c.rel.toNat / 256)),
    (0x08, byteOf (0x80 + 0x40 * c.selfPowered.toNat + 0x20 * c.remoteWakeup.toNat)), (0x09, byteOf (c.maxPower / 2))]
    ++ if v = .am ∨ v = .ft230X then [] else [(0x0A, byteOf (c.isoIn.toNat + 2 * c.isoOut.toNat))]

/-- The first `n` bytes of RAM `r`: the characters of a string. -/
def State.chars (s : State) (r : RamId) (n : Nat) : List Byte := (List.range n).map (s.ramByte r)

/-- A string's descriptor (30_encoding.md R143). -/
def descriptorBytes (chars : List Byte) : List Byte :=
  byteOf (2 * chars.length + 2) :: 0x03 :: chars.flatMap fun ch => [ch, 0x00]

/-- Bytes written one after another from the raw position `start` into an image of `size` bytes: byte `k` goes to
`(start + k) mod size` (40_build.md R179, R184). -/
def wrappedWrites (size start : Nat) (bytes : List Byte) : List (Nat × Byte) :=
  bytes.zipIdx.map fun b => ((start + b.2) % size, b.1)

/-- The writes of steps 5 and 6, in their order: for each string the offset slot, the descriptor, the length slot; then the
PnP trailer (40_build.md R181, R182, R185). -/
def State.tableWrites (s : State) (v : Variant) (size : Nat) : List (Nat × Byte) :=
  let c := s.cfg
  let mfr := (s.params.strStart v).toNat
  let prod := mfr + (2 * c.mfrLen + 2)
  let ser := prod + (2 * c.prodLen + 2)
  let pnp := ser + (2 * c.serLen + 2)
  let mfrSlot := match s.params.mfrOffsetMode with
    | .raw => mfr
    | .masked => mfr % size
  [(0x0E, byteOf mfrSlot)] ++ wrappedWrites size mfr (descriptorBytes (s.chars .strM c.mfrLen))
    ++ [(0x0F, byteOf (2 * c.mfrLen + 2)), (0x10, byteOf (prod ||| 0x80))]
    ++ wrappedWrites size prod (descriptorBytes (s.chars .strP c.prodLen))
    ++ [(0x11, byteOf (2 * c.prodLen + 2)), (0x12, byteOf (ser ||| 0x80))]
    ++ wrappedWrites size ser (descriptorBytes (s.chars .strS c.serLen))
    ++ [(0x13, byteOf (2 * c.serLen + 2))]
    ++ if v = .am ∨ v = .bm then [] else wrappedWrites size pnp [0x02, 0x03, if c.isNotPnp then 0x01 else 0x00]

/-- Image byte `a` after steps 3..6 of a BUILD: the last write, else step 3's zero, else (in the 230X window) what stood there
(40_build.md R175, R177, R178, R181, R185). -/
def State.imageBase (s : State) (v : Variant) (a : Nat) : Byte :=
  (lastWrite (fixedWrites v s.cfg ++ s.tableWrites v s.buildSize.bytes) a).getD
    (if v = .ft230X ∧ 0x80 ≤ a ∧ a < 0xA0 then s.ramByte .img a else 0x00)

/-- The bits of image byte `a` that step 7 writes on variant `v` (40_build.md R194). -/
def State.claimedBits (s : State) (v : Variant) (a : Nat) : Byte :=
  ((s.params.claims v).filter fun c => c.1 == a).foldl (fun m c => m ||| c.2) 0

/-- The register of a channel, A..D in order (10_state.md R52). -/
def ConfigRegs.channelWord (c : ConfigRegs) : Chan → Word
  | .a => c.chans[0]
  | .b => c.chans[1]
  | .c => c.chans[2]
  | .d => c.chans[3]

/-- The value of a layout entry, from the bits of the configuration words (40_build.md R192; 10_state.md R46, R52). -/
def State.layoutValue (s : State) (v : Variant) : FieldKind → Byte
  | .chType ch =>
    (encodeChannel s.params.family2232 (BitVec.ofNat 4 (s.cfg.channelWord ch).toNat) v.code).setWidth 8
  | .chVcp ch => byteOf ((s.cfg.channelWord ch).toNat / 2 ^ 8 % 2)
  | .chHicur ch => byteOf ((s.cfg.channelWord ch).toNat / 2 ^ 10 % 2)
  | .chRs485 ch => byteOf ((s.cfg.channelWord ch).toNat / 2 ^ 9 % 2)
  | .useSerial => byteOf (s.cfg.desc.toNat / 2 ^ 18 % 2)
  | .chipId => s.devChipid
  | .const k => k

/-! ### Commands that wait, and host accesses in between -/

/-- The machine stands in K_WAIT with the read after `answers` out (10_state.md R64), W_RDFAIL as those answers left it, and a
step changes nothing. -/
structure State.WaitsForEver (t : State) (answers : List (Half × Bool)) : Prop where
  phase : t.phase = .kWait
  request : t.rdwReq = true ∧ t.rdwWait = true ∧ t.rdwIdx = byteOf (0x40 + answers.length)
  running : t.status.busy = true ∧ t.status.done = false ∧ t.doneOut = false
  warning : t.status.wRdFail = answers.any (·.2)
  stays : step t = .next t

/-- A read or a write on the host bus. -/
def Input.isAccess : Input → Bool
  | .hostRead _ => true
  | .hostWrite _ _ => true
  | _ => false

/-- A write on the host bus. -/
def Input.isWrite : Input → Bool
  | .hostWrite _ _ => true
  | _ => false

/-- `n` steps of the machine. -/
def steps : Nat → State → Host.Outcome State Fault Refusal
  | 0, s => .next s
  | n + 1, s =>
    match step s with
    | .next t => steps n t
    | o => o

/-- The sequencer steps that pass in all before a list of inputs has landed. -/
def totalAfter (inputs : List Arrival) : Nat := (inputs.map (·.after)).sum

/-- Host accesses and the device's answers, in any interleaving that keeps the order of the answers and ends with one. -/
structure Interleaves (answers : List (Half × Bool)) (inputs : List Arrival) : Prop where
  answersKept : (inputs.filter fun a => !a.input.isAccess) = answerInputs answers
  endsWithAnswer : ∃ before data err, inputs = before ++ [⟨100, .deviceAck data err⟩]

/-- `u` but for what host accesses leave: HOST_VIOL where one was a write, and what the model records of the reads
(10_state.md R32, R40; logs 9, 11). -/
def State.sameResult (t u : State) (inputs : List Arrival) : Prop :=
  t =
    { u with
      status := { u.status with hostViol := u.status.hostViol || inputs.any fun a => a.input.isWrite }
      hostRdata := t.hostRdata, draws := t.draws }

/-! ### The host bus -/

/-- The byte address at which a RAM's window begins (10_state.md R31, R54..R56). -/
def windowBase : RamId → Nat
  | .strM => 0x100
  | .strP => 0x180
  | .strS => 0x200
  | .udb => 0x300
  | .img => 0x400

/-- The words of a RAM's window (10_state.md R54..R56). -/
def windowWords : RamId → Nat
  | .udb => 64
  | .img => 64
  | _ => 32

/-- The bits a host write changes in the configuration register at byte address `A`, and so the bits some field names
(10_state.md R31, R45..R53), at capacities `c` (00_scope.md R12); `none` where no configuration register stands. -/
def cfgWritable (c : Capacities) (A : Nat) : Option Word :=
  if A = 0x020 then some 0xFFFFFFFF
  else if A = 0x024 then some 0x003FFFFF
  else if A = 0x028 then some 0x000001FF
  else if A = 0x02C then some 0x8000030F
  else if A = 0x030 then some 0x007F7F7F
  else if A = 0x034 then some 0xFFFFFFFF
  else if 0x040 ≤ A ∧ A < 0x040 + 4 * c.maxGroups then some 0x000003FF
  else if 0x060 ≤ A ∧ A < 0x060 + 4 * c.maxChan then some 0x0000070F
  else if 0x070 ≤ A ∧ A < 0x070 + c.maxCbus then some (BitVec.ofNat 32 (2 ^ (8 * min 4 (c.maxCbus - (A - 0x070))) - 1))
  else none

/-- A read-only register or no register: STATUS, UAREA, CKSUM, ENCRES, IMGSIZE, and every word outside the map
(10_state.md R31), at capacities `c` (00_scope.md R12). -/
def writeIgnored (c : Capacities) (A : Nat) : Prop :=
  A = 0x004 ∨ A = 0x008 ∨ A = 0x00C ∨ A = 0x010 ∨ A = 0x014 ∨ A = 0x018 ∨ A = 0x01C ∨ A = 0x038 ∨ A = 0x03C
    ∨ (0x040 + 4 * c.maxGroups ≤ A ∧ A < 0x060) ∨ (0x060 + 4 * c.maxChan ≤ A ∧ A < 0x070)
    ∨ (0x070 + c.maxCbus ≤ A ∧ A < 0x07C)
    ∨ (0x07C ≤ A ∧ A < 0x100) ∨ (0x280 ≤ A ∧ A < 0x300) ∨ 0x500 ≤ A

/-! ### The invariant of every run -/

/-- Every RAM is in canonical form and inside its size (10_state.md R54..R56). -/
def State.memoriesWf (s : State) : Bool :=
  s.strM.wf && s.strM.within 128 && s.strP.wf && s.strP.within 128 && s.strS.wf && s.strS.within 128
    && s.udb.wf && s.udb.within 256 && s.img.wf && s.img.within 256

/-- No reserved bit of a configuration register is set (10_state.md R32). -/
structure ConfigRegs.ReservedClear (c : ConfigRegs) (caps : Capacities) : Prop where
  desc : c.desc &&& ~~~descMask = 0
  power : c.power &&& ~~~powerMask = 0
  chip : c.chip &&& ~~~chipMask = 0
  strLen : c.strLen &&& ~~~strLenMask = 0
  groups : ∀ g : Fin 8, c.groups[g] &&& ~~~groupRegMask = 0
  chans : ∀ i : Fin 4, c.chans[i] &&& ~~~chanMask = 0
  cbus : ∀ i : Fin 3, c.cbus[i] &&& ~~~cbusRegMask caps.maxCbus i.val = 0

/-- A BUILD is past the budget check of step 2. -/
def State.pastBudget (s : State) : Bool :=
  s.status.busy && s.cmdv.op == opBuild && !(s.phase == .bCheck || s.phase == .b1 || s.phase == .b2)

/-- What holds at reset and is kept by every step. -/
structure State.Inv (s : State) : Prop where
  memories : s.memoriesWf = true
  reserved : s.cfg.ReservedClear s.params.caps
  /-- a running command stands where its opcode visits (10_state.md R58) -/
  running : s.status.busy = true → s.coherent = true
  /-- with BUSY = 0 the sequencer is idle and no request is out (60_exceptions.md R306, R327) -/
  idle : s.status.busy = false → s.phase = .idle ∧ s.rdwReq = false ∧ s.rdwWait = false
  /-- nothing runs while RST is asserted (70_reset_and_hazards.md R340) -/
  inReset : s.rst = true → s.status.busy = false
  /-- DONE and BUSY are never both 1 (10_state.md R36) -/
  doneIdle : s.status.done = true → s.status.busy = false
  /-- BUILT only after a normal end (10_state.md R37) -/
  builtDone : s.status.built = true → s.status.done = true ∧ s.status.err = .none
  /-- an error code only after the end (10_state.md R38) -/
  errDone : s.status.err ≠ .none → s.status.done = true
  /-- IMGSIZE is 0, 0x080 or 0x100 (10_state.md R44) -/
  size : s.imgSize = 0x000 ∨ s.imgSize = 0x080 ∨ s.imgSize = 0x100
  /-- a device read waits only on 230X, for a live index below the bound (42_checksum.md R266) -/
  waiting : s.phase = .kWait →
    s.on230X = true ∧ s.rdwIdx = s.wi ∧ s.params.tables.liveLo ≤ s.wi.toNat ∧ s.wi.toNat < s.params.tables.liveHi
      ∧ s.wi.toNat < s.wordBound
  /-- past step 2 the user area is not negative, and at most the largest BASE (40_build.md R173) -/
  budget : s.pastBudget = true → 0 ≤ s.ua ∧ (s.params.tables = SourceTables.standard → s.ua ≤ 214)
  /-- UAREA is in 0..214 (10_state.md R41) -/
  uarea : s.params.tables = SourceTables.standard → s.uarea.toNat ≤ 214

end Sys2Proof.Machine
end

