-- ==== Sys2Proof/Certificates/Slice0/Obligations.lean ====
section
/-! DEFINITION. The statements for the provers. -/

open Sys2Proof Sys2Proof.Machine

/-! ### Command words -/

/-- The decoder reads exactly the word the encoder writes, for every instruction and every operand
(30_encoding.md R130..R133, R136). -/
def Obligations.DecodeInvertsEncode : Prop := ∀ (w : Word) (i : Instr), decode w = .ok i ↔ w = encode i

/-- The opcode map of 30_encoding.md R132 with its masks and matches written out, and the fields each row uses (R133). -/
def Obligations.LegalWordsAreTheOpcodeRows : Prop :=
  ∀ w : Word,
    (decode w = .ok .build ↔ w &&& 0xFFFFFFFF#32 = 0x00000001#32)
      ∧ (∀ var fn, decode w = .ok (.encode var fn) ↔
          w &&& 0xFFFFF00F#32 = 0x00000002#32 ∧ var = w.extractLsb' 4 4 ∧ fn = w.extractLsb' 8 4)
      ∧ (∀ var szb, decode w = .ok (.checksum var szb) ↔
          w &&& 0xFFFFEF0F#32 = 0x00000003#32 ∧ var = w.extractLsb' 4 4 ∧ szb = w.getLsbD 12)
      ∧ ((∃ i, decode w = .ok i) ↔ wellFormedWord w = true)

/-- Words the spec writes out (30_encoding.md R132, R136; 95_test_vectors.md 2.2, 2.4). -/
def Obligations.WrittenWordsDecode : Prop :=
  decode 0x00000001#32 = .ok .build
    ∧ decode 0x00000362#32 = .ok (.encode Variant.ft232H.code ChannelFn.cpu.code)
    ∧ decode 0x00001073#32 = .ok (.checksum Variant.ft230X.code true)
    ∧ decode 0x00000000#32 = .error (.unknownOpcode 0)
    ∧ decode 0x00000011#32 = .error (.mustBeZero 1)

/-- An illegal word is accepted and ends at once with BadCommand; nothing else changes but CMD, CMDV, PHASE and the STATUS
bits acceptance clears (30_encoding.md R134, 60_exceptions.md R303). `chipidMoved` is the model's own bookkeeping (log 8). -/
def Obligations.IllegalWordEndsWithBadCommand : Prop :=
  ∀ (s : State) (w : Word) (k : Nat) (rest : List Arrival), s.Ready → s.inputs = ⟨k, .hostWrite 0 w⟩ :: rest →
    (¬∃ r ∈ opcodeRows, w &&& r.mask = r.pattern) →
    step s = .next
      { s with
        cmd := w, cmdv := ⟨w.extractLsb' 0 4, w.extractLsb' 4 4, w.extractLsb' 8 4, w.getLsbD 12⟩
        status := ⟨false, true, false, .badCommand, false, false, false, false, false, false⟩
        phase := .idle, rdwReq := false, chipidMoved := false, inputs := rest }

/-- A step runs the decoded instruction: when the next thing to happen is the host's write of a command word to CMD, the step
is `exec` of the decoded instruction with that input taken off the queue; and so from `withFetchWord` (60_exceptions.md
R300). -/
def Obligations.StepRunsTheDecodedInstruction : Prop :=
  (∀ (s : State) (w : Word) (i : Instr) (k : Nat) (rest : List Arrival), s.canRun = false →
      s.inputs = ⟨k, .hostWrite 0 w⟩ :: rest → decode w = .ok i → step s = exec i { s with inputs := rest })
    ∧ ∀ (s : State) (nbits w : Nat) (i : Instr), decodeTableWord nbits w = some i →
        step (s.withFetchWord nbits w) = exec i { s with rst := false, status := { s.status with busy := false } }

/-! ### ENCODE -/

/-- ENCODE's result, its flags and its frame (41_channel_encoder.md R240): on a ready machine it completes in one sequencer
step with ENCRES the encoder's output, DONE alone set in STATUS, and no register, RAM byte or hidden register changed but
those named. -/
def Obligations.EncodeResult : Prop :=
  ∀ (s : State) (var fn : Nibble), s.Ready → s.inputDue = false →
    exec (.encode var fn) s = .next
      { s with
        cmd := encode (.encode var fn), cmdv := ⟨2, var, fn, false⟩
        status := ⟨false, true, false, .none, false, false, false, false, false, false⟩
        encres := encodeChannel s.params.family2232 fn var
        phase := .idle, rdwReq := false, chipidMoved := false, inputs := s.countDown.inputs }

/-- The encoder's table (41_channel_encoder.md R241): its values for the default FAMILY_2232, the 4232H column when 4232H is
added to it, and the output set of each variant. -/
def Obligations.ChannelTypeTable : Prop :=
  (∀ fn var : Nibble, encodeChannel [.ft2232C, .ft2232H] fn var =
      if 8 ≤ var.toNat then 0
      else if fn = 1 then 1
      else if fn = 2 ∧ (var = 3 ∨ var = 4 ∨ var = 6) then 2
      else if fn = 3 ∧ (var = 3 ∨ var = 4 ∨ var = 6) then 4
      else if fn = 4 ∧ var = 6 then 8
      else 0)
    ∧ (∀ fn : Nibble, encodeChannel [.ft2232C, .ft2232H, .ft4232H] fn 5 =
        if fn = 1 then 1 else if fn = 2 then 2 else if fn = 3 then 4 else 0)
    ∧ ∀ var x : Nibble, var.toNat < 8 →
        ((∃ fn, encodeChannel [.ft2232C, .ft2232H] fn var = x) ↔
          x = 0 ∨ x = 1 ∨ ((x = 2 ∨ x = 4) ∧ (var = 3 ∨ var = 4 ∨ var = 6)) ∨ (x = 8 ∧ var = 6))

/-! ### CHECKSUM -/

/-- CHECKSUM's result, its flags and its frame (42_checksum.md R260..R267), on every variant and size: with the device's
sixteen answers to come where it reads the device, and nothing to come where it does not, it completes with CKSUM the fold of
the words of `State.foldedWords`, W_RDFAIL exactly when a read failed, and IMG and every field not named unchanged.
`chipidMoved` is the model's own bookkeeping (log 8). -/
def Obligations.ChecksumResult : Prop :=
  ∀ (s : State) (var : Nibble) (szb : Bool) (v : Variant) (answers : List (Half × Bool)),
    s.Ready → s.params.tables = SourceTables.standard → Variant.ofCode? var = some v →
    answers.length = readsNeeded v (.ofBit szb) → s.inputs = answerInputs answers →
    exec (.checksum var szb) s = .next
      { s with
        cmd := encode (.checksum var szb), cmdv := ⟨3, var, 0, szb⟩
        status := ⟨false, true, false, .none, false, false, false, false, answers.any (·.2), false⟩
        cksum := s.checksumOf v (.ofBit szb) answers
        ck := s.checksumOf v (.ofBit szb) answers
        sz := .ofBit szb, wi := finalIndex v (.ofBit szb)
        phase := .idle, rdwReq := false
        rdwWait := if answers = [] then s.rdwWait else false
        rdwIdx := if answers = [] then s.rdwIdx else 0x4F
        chipidMoved := false, inputs := [] }

/-- CHECKSUM with a code 8..15 raises UnknownChip before anything but STATUS, CMD and CMDV changes (42_checksum.md R260). -/
def Obligations.ChecksumUnknownChip : Prop :=
  ∀ (s : State) (var : Nibble) (szb : Bool), s.Ready → 8 ≤ var.toNat →
    exec (.checksum var szb) s = .next
      { s with
        cmd := encode (.checksum var szb), cmdv := ⟨3, var, 0, szb⟩
        status := ⟨false, true, false, .unknownChip, false, false, false, false, false, false⟩
        phase := .idle, rdwReq := false, chipidMoved := false }

/-- An unanswered device read (10_state.md R64; 70_reset_and_hazards.md R352), of CHECKSUM and of BUILD step 9, any of the
sixteen: on 230X at 256 bytes with fewer than sixteen answers to come, the command reaches K_WAIT with the request for the
first unanswered word out, publishes no result, and stays there for ever. -/
def Obligations.UnansweredReadWaitsForEver : Prop :=
  (∀ (s : State) (answers : List (Half × Bool)), s.Ready → s.params.tables = SourceTables.standard →
      answers.length < 16 → s.inputs = answerInputs answers →
      ∃ t, exec (.checksum Variant.ft230X.code true) s = .next t ∧ t.WaitsForEver answers
        ∧ t.cksum = s.cksum ∧ t.img = s.img ∧ t.uarea = s.uarea ∧ t.imgSize = s.imgSize)
    ∧ ∀ (s : State) (answers : List (Half × Bool)), s.BuildPasses .ft230X → s.buildSize = .b256 →
        answers.length < 16 → s.inputs = answerInputs answers →
        ∃ t, exec .build s = .next t ∧ t.WaitsForEver answers
          ∧ t.cksum = s.cksum ∧ t.uarea = s.uarea ∧ t.imgSize = s.imgSize

/-- A command in K_WAIT goes on when the device answers, and ends when it has answered every read (10_state.md R64;
70_reset_and_hazards.md R361): with the answers to all reads still to make in the queue, one step folds them and the last
words of the image, and ends the CHECKSUM or the BUILD with its results (42_checksum.md R260, R266..R268; 40_build.md R203,
R204). -/
def Obligations.WaitingCommandGoesOn : Prop :=
  ∀ (s : State) (answers : List (Half × Bool)) (ck : Half), s.status.busy = true → s.phase = .kWait →
    s.coherent = true → s.on230X = true → s.sz = .b256 → s.params.tables = SourceTables.standard →
    s.rdwIdx = s.wi → 0x40 ≤ s.wi.toNat → s.wi.toNat < 0x50 → s.wi.toNat + answers.length = 0x50 →
    s.inputs = answerInputs answers →
    ck = foldFrom s.ck (answers.map (liveWord s.params) ++ s.imageWords 0x50 0x7F) →
    (s.cmdv.op = opChecksum →
        step s = .next
          { s with
            status :=
              { s.status with
                busy := false, done := true, err := .none, wRdFail := s.status.wRdFail || answers.any (·.2) }
            cksum := ck, ck := ck, wi := 0x7F, phase := .idle
            rdwReq := false, rdwWait := false, rdwIdx := 0x4F, inputs := [] })
      ∧ (s.cmdv.op = opBuild →
        step s = .next
          { s with
            status :=
              { s.status with
                busy := false, done := true, built := true, err := .none
                wRdFail := s.status.wRdFail || answers.any (·.2) }
            cksum := ck, ck := ck, wi := 0x7F, phase := .idle
            rdwReq := false, rdwWait := false, rdwIdx := 0x4F, inputs := []
            uarea := BitVec.ofInt 16 s.ua, imgSize := 0x100, img := (s.putImgHalf 0xFE ck).img })

/-- Host accesses while a command runs do not change what it does (70_reset_and_hazards.md R360; 10_state.md R32, R40): a
running command that would end, given the device's answers alone, ends in the same state when host reads and writes land in
between, but for HOST_VIOL where one was a write and what the model records of the reads. Each step but the last takes it up
to an input, or lands one. The accesses land while it runs: in the first clause no answer is needed and `totalAfter` steps
leave it running; in the second an answer stands last. -/
def Obligations.RunningCommandIgnoresHostAccesses : Prop :=
  ∀ (s q : State) (answers : List (Half × Bool)) (inputs : List Arrival), s.status.busy = true → s.rst = false →
    s.coherent = true → s.chipidMoved = false → q = { s with inputs := answerInputs answers } →
    (q.run seqFuel).status.busy = false → (q.run seqFuel).inputs = [] →
    (answers = [] ∧ (inputs.all fun a => a.input.isAccess) = true ∧ (q.run (totalAfter inputs)).status.busy = true
      ∨ Interleaves answers inputs) →
    ∃ u, steps (2 * inputs.length + 1) { s with inputs := inputs } = .next u ∧ u.sameResult (q.run seqFuel) inputs

/-- The same of a command from acceptance on, where no device read is out (in no run does an idle ILE have one out, `State.Inv`):
issued with host accesses and answers still to land, `exec` takes it to the first of them, and the steps that follow to its end,
with the result it has when only the answers land (60_exceptions.md R300; 70_reset_and_hazards.md R360, R361). -/
def Obligations.CommandEndsDespiteHostAccesses : Prop :=
  ∀ (i : Instr) (s u : State) (answers : List (Half × Bool)) (inputs : List Arrival), s.Ready →
    s.rdwReq = false → s.rdwWait = false →
    exec i { s with inputs := answerInputs answers } = .next u → u.status.busy = false → u.inputs = [] →
    (answers = [] ∧ (inputs.all fun a => a.input.isAccess) = true
        ∧ (∃ b, exec i { s with inputs := [⟨totalAfter inputs, .hostRead 0x001⟩] } = .next b ∧ b.status.busy = true)
      ∨ Interleaves answers inputs) →
    ∃ t w, exec i { s with inputs := inputs } = .next t ∧ steps (2 * inputs.length) t = .next w ∧ w.sameResult u inputs

/-- How many words are folded (42_checksum.md R270). -/
def Obligations.WordsFoldedCount : Prop :=
  ∀ (s : State) (v : Variant) (sz : ImgSize) (answers : List (Half × Bool)), answers.length = readsNeeded v sz →
    (s.foldedWords v sz answers).length =
      match sz with
      | .b128 => if v = .ft230X then 18 else 63
      | .b256 => if v = .ft230X then 81 else 127

/-- The closed form of the accumulator and its three consequences (42_checksum.md R271), of the model's own fold. -/
def Obligations.ChecksumClosedForm : Prop :=
  (∀ (seed : Half) (ws : List Half),
      ws.foldl fold16 seed =
        (ws.zipIdx.map fun p => p.1.rotateLeft (ws.length - p.2)).foldl (· ^^^ ·) (seed.rotateLeft ws.length))
    ∧ (∀ n : Nat, (List.replicate n (0x0000 : Half)).foldl fold16 0xAAAA = if n % 2 = 1 then 0x5555 else 0xAAAA)
    ∧ (∀ n : Nat, (List.replicate n (0xFFFF : Half)).foldl fold16 0xAAAA = 0xAAAA)
    ∧ ∀ (seed w : Half) (pre post : List Half) (b : Fin 16),
        (pre ++ (w ^^^ BitVec.twoPow 16 b.val) :: post).foldl fold16 seed =
          (pre ++ w :: post).foldl fold16 seed ^^^ (BitVec.twoPow 16 b.val).rotateLeft (post.length + 1)

/-- One fold: the exclusive or, rotated left by one (42_checksum.md R264, 00_scope.md R18). -/
def Obligations.FoldIsXorThenRotateLeft : Prop :=
  (∀ x : Half, (rotl16 x).toNat = (x.toNat * 2 ||| x.toNat / 2 ^ 15) % 2 ^ 16)
    ∧ ∀ (s : State) (w : Half), (s.foldWord w).ck = rotl16 (s.ck ^^^ w)

/-! ### BUILD: where it ends early -/

/-- BUILD checks that a configuration is present, then that the variant is known, and changes nothing but STATUS, CMD and CMDV
when either fails (40_build.md R170; 60_exceptions.md R305, R307). -/
def Obligations.BuildChecksConfigurationThenVariant : Prop :=
  ∀ s : State, s.Ready → s.inputDue = false →
    (s.cfg.cfgValid = false →
      exec .build s = .next
        { s with
          cmd := 1, cmdv := ⟨1, 0, 0, false⟩
          status := ⟨false, true, false, .noConfiguration, false, false, false, false, false, false⟩
          phase := .idle, rdwReq := false, chipidMoved := false, inputs := s.countDown.inputs })
      ∧ (s.cfg.cfgValid = true → 8 ≤ s.cfg.variantCode.toNat →
          exec .build s = .next
            { s with
              cmd := 1, cmdv := ⟨1, 0, 0, false⟩
              status := ⟨false, true, false, .unknownChip, false, false, false, false, false, false⟩
              phase := .idle, rdwReq := false, chipidMoved := false, inputs := s.countDown.inputs })

/-- Strings over the budget end BUILD at step 2 with SizeExceeded: no warning, and nothing changes but STATUS, CMD, CMDV and
the hidden CHIPID, SZ and UA (40_build.md R173, R174, R208). -/
def Obligations.BudgetFailureChangesNothingVisible : Prop :=
  ∀ (s : State) (v : Variant), s.Ready → s.inputs = [] → s.cfg.cfgValid = true →
    Variant.ofCode? s.cfg.variantCode = some v →
    (s.params.tables.base.get v : Int) < 2 * (s.cfg.mfrLen + s.cfg.prodLen + s.cfg.serLen : Nat) →
    exec .build s = .next
      { s with
        cmd := 1, cmdv := ⟨1, 0, 0, false⟩
        status := ⟨false, true, false, .sizeExceeded, false, false, false, false, false, false⟩
        chipid := s.devChipid, sz := s.buildSize
        ua := (s.params.tables.base.get v : Int) - 2 * (s.cfg.mfrLen + s.cfg.prodLen + s.cfg.serLen : Nat)
        phase := .idle, rdwReq := false, chipidMoved := false }

/-- User data past the image end ends BUILD at step 8 with SizeExceeded (40_build.md R200, R202): the step-7 and step-8 warnings
stand, CKSUM, UAREA and IMGSIZE keep their values, and the image holds what steps 3..7 wrote: below the trailer, what the same
BUILD with no user data leaves there; at SZ - 2 and SZ - 1, where the trailer was not written, what steps 3..6 left; and bytes
at or above SZ keep their values. -/
def Obligations.UserDataTooLarge : Prop :=
  ∀ (s u : State) (v : Variant) (answers : List (Half × Bool)),
    u = { s with cfg := { s.cfg with ud := 0 }, inputs := answerInputs answers } → u.BuildRuns v answers →
    s.inputs = [] → s.cfg.udSize ≠ 0 → s.buildSize.bytes < s.cfg.udOffset + s.cfg.udSize →
    ∃ t t', exec .build s = .next t ∧ exec .build u = .next t'
      ∧ t.status =
          ⟨false, true, false, .sizeExceeded,
            (List.range (s.params.nGroups v)).any fun g => decide (3 < (s.cfg.drive g).toNat),
            (List.range (s.params.nCbus v)).any fun k =>
              decide ((s.params.variant v).cbusMax < (s.cfg.cbusCode k).toNat),
            decide (s.cfg.udOffset < (s.params.variant v).freeStart),
            decide ((s.params.strStart v).toNat ≤ s.cfg.udOffset + s.cfg.udSize), false, false⟩
      ∧ t.cksum = s.cksum ∧ t.uarea = s.uarea ∧ t.imgSize = s.imgSize ∧ t.phase = .idle
      ∧ (∀ a : ImgAddr, a.toNat < s.buildSize.bytes - 2 → t.imgByte a = t'.imgByte a)
      ∧ (∀ a : ImgAddr, s.buildSize.bytes - 2 ≤ a.toNat → a.toNat < s.buildSize.bytes →
          t.imgByte a = s.imageBase v a.toNat)
      ∧ ∀ a : ImgAddr, s.buildSize.bytes ≤ a.toNat → t.imgByte a = s.imgByte a

/-! ### BUILD: where it completes -/

/-- BUILD completes (40_build.md R170, R203, R204; 60_exceptions.md R307): STATUS with exactly the warnings the rules give, the
results in UAREA, IMGSIZE and CKSUM, the checksum that of the finished image, and no field changed but those named.
`chipidMoved` is the model's own bookkeeping (log 8). -/
def Obligations.BuildCompletes : Prop :=
  ∀ (s : State) (v : Variant) (answers : List (Half × Bool)), s.BuildRuns v answers →
    ∃ t, exec .build s = .next t
      ∧ t.status =
          ⟨false, true, true, .none,
            (List.range (s.params.nGroups v)).any fun g => decide (3 < (s.cfg.drive g).toNat),
            (List.range (s.params.nCbus v)).any fun k =>
              decide ((s.params.variant v).cbusMax < (s.cfg.cbusCode k).toNat),
            decide (s.cfg.udSize ≠ 0) && decide (s.cfg.udOffset < (s.params.variant v).freeStart),
            decide (s.cfg.udSize ≠ 0) && decide ((s.params.strStart v).toNat ≤ s.cfg.udOffset + s.cfg.udSize),
            answers.any (·.2), false⟩
      ∧ (t.uarea.toNat : Int) = (s.params.tables.base.get v : Int) - 2 * (s.cfg.totalLen : Nat)
      ∧ t.imgSize.toNat = s.buildSize.bytes
      ∧ t.cksum = t.checksumOf v s.buildSize answers
      ∧ t.imgHalf (byteOf (s.buildSize.bytes - 2)) = t.cksum
      ∧ t =
          { s with
            cmd := 1, cmdv := ⟨1, 0, 0, false⟩, status := t.status
            uarea := t.uarea, cksum := t.cksum, imgSize := t.imgSize, img := t.img
            phase := .idle, cur := t.cur, sz := s.buildSize, chipid := s.devChipid
            ua := (s.params.tables.base.get v : Int) - 2 * (s.cfg.totalLen : Nat)
            ck := t.cksum, wi := finalIndex v s.buildSize
            rdwReq := false
            rdwWait := if answers = [] then s.rdwWait else false
            rdwIdx := if answers = [] then s.rdwIdx else 0x4F
            chipidMoved := false, inputs := [] }

/-- What BUILD leaves of the image RAM (20_memory.md R101, R108; 40_build.md R175, R176): bytes at or above SZ, and on 230X the
factory window where no user data lands on it, keep their values. -/
def Obligations.BuildWritesOnlyItsImage : Prop :=
  ∀ (s : State) (v : Variant) (answers : List (Half × Bool)), s.BuildRuns v answers →
    ∃ t, exec .build s = .next t
      ∧ (∀ a : ImgAddr, s.buildSize.bytes ≤ a.toNat → t.imgByte a = s.imgByte a)
      ∧ (v = .ft230X → s.buildSize = .b256 → ∀ a : ImgAddr, 0x80 ≤ a.toNat → a.toNat < 0xA0 →
          ¬(s.cfg.udOffset ≤ a.toNat ∧ a.toNat < s.cfg.udOffset + s.cfg.udSize) → t.imgByte a = s.imgByte a)

/-- The fixed fields in the finished image (40_build.md R177, R178; 30_encoding.md R145..R147), where neither a wrapped string
table nor user data lands on them. At 0x0A the bits that no step-7 field claims are 0 but for the configuration byte's two,
and on AM and 230X, which have no configuration byte, all of them are 0. -/
def Obligations.BuildStoresTheFixedFields : Prop :=
  ∀ (s : State) (v : Variant) (answers : List (Half × Bool)), s.BuildRuns v answers →
    s.tableStart v + tableLength v s.cfg ≤ s.buildSize.bytes + 2 → s.UserDataOff 0x02 0x0B →
    ∃ t, exec .build s = .next t
      ∧ t.imgHalf 0x02 = s.cfg.vid ∧ t.imgHalf 0x04 = s.cfg.pid ∧ t.imgHalf 0x06 = s.cfg.rel
      ∧ (t.imgByte 0x08).toNat = 128 + 64 * s.cfg.selfPowered.toNat + 32 * s.cfg.remoteWakeup.toNat
      ∧ (t.imgByte 0x09).toNat = s.cfg.maxPower / 2
      ∧ (v ≠ .am → v ≠ .ft230X →
          (t.imgByte 0x0A &&& 0x03).toNat = s.cfg.isoIn.toNat + 2 * s.cfg.isoOut.toNat
            ∧ t.imgByte 0x0A &&& 0xFC &&& ~~~s.claimedBits v 0x0A = 0)
      ∧ (v = .am ∨ v = .ft230X → t.imgByte 0x0A &&& ~~~s.claimedBits v 0x0A = 0)

/-- The string table reads back (40_build.md R181, R185, R207; 30_encoding.md R143, R144, R150), where it is clean: the three
descriptors stand one after another from s0 and the PnP trailer behind them on the variants newer than BM, unless user data or a
step-7 bit touches the table; and the six header slots hold the raw start (masked in mode `masked`), the starts marked with
0x80, and the length bytes, unless user data touches them. -/
def Obligations.BuildStoresTheStringTable : Prop :=
  ∀ (s : State) (v : Variant) (answers : List (Half × Bool)), s.BuildRuns v answers → s.CleanTable v →
    ∃ t, exec .build s = .next t
      ∧ (s.LayoutOffTable v → s.UserDataOff (s.tableStart v) (s.tableStart v + tableLength v s.cfg) →
          t.DescriptorAt (s.tableStart v) .strM s.cfg.mfrLen
            ∧ t.DescriptorAt (s.tableStart v + (2 * s.cfg.mfrLen + 2)) .strP s.cfg.prodLen
            ∧ t.DescriptorAt (s.tableStart v + (2 * s.cfg.mfrLen + 2) + (2 * s.cfg.prodLen + 2)) .strS s.cfg.serLen
            ∧ (v ≠ .am → v ≠ .bm →
                t.imgByte (byteOf (s.tableStart v + 2 * s.cfg.totalLen + 6)) = 0x02
                  ∧ t.imgByte (byteOf (s.tableStart v + 2 * s.cfg.totalLen + 7)) = 0x03
                  ∧ t.imgByte (byteOf (s.tableStart v + 2 * s.cfg.totalLen + 8)) =
                      (if s.cfg.isNotPnp then 0x01 else 0x00)))
      ∧ (s.UserDataOff 0x0E 0x14 →
          t.imgByte 0x0E =
              (match s.params.mfrOffsetMode with
                | .raw => byteOf (s.params.strStart v).toNat
                | .masked => byteOf (s.tableStart v))
            ∧ t.imgByte 0x10 = byteOf ((s.params.strStart v).toNat + (2 * s.cfg.mfrLen + 2) ||| 0x80)
            ∧ t.imgByte 0x12 =
                byteOf ((s.params.strStart v).toNat + (2 * s.cfg.mfrLen + 2) + (2 * s.cfg.prodLen + 2) ||| 0x80)
            ∧ t.imgByte 0x0F = byteOf (2 * s.cfg.mfrLen + 2) ∧ t.imgByte 0x11 = byteOf (2 * s.cfg.prodLen + 2)
            ∧ t.imgByte 0x13 = byteOf (2 * s.cfg.serLen + 2))

/-- The finished image byte by byte, whatever the string table wraps onto and wherever the user data lies (40_build.md R175..R178,
R181, R182, R184, R185, R188, R191, R201): below the trailer, a byte of the user data's range holds the blob's byte, and in
every other byte the bits that step 7 does not claim hold the last write of steps 3..6 (`State.imageBase`). -/
def Obligations.BuildImageByteByByte : Prop :=
  ∀ (s : State) (v : Variant) (answers : List (Half × Bool)), s.BuildRuns v answers →
    ∃ t, exec .build s = .next t
      ∧ ∀ a : ImgAddr, a.toNat < s.buildSize.bytes - 2 →
          if s.cfg.udOffset ≤ a.toNat ∧ a.toNat < s.cfg.udOffset + s.cfg.udSize then
            t.imgByte a = s.ramByte .udb (a.toNat - s.cfg.udOffset)
          else
            t.imgByte a &&& ~~~s.claimedBits v a.toNat = s.imageBase v a.toNat &&& ~~~s.claimedBits v a.toNat

/-- The chip-specific fields in the finished image (40_build.md R187, R191..R193, R197, R198; 30_encoding.md R148, R149, R154),
where no user data is copied onto the byte: every layout entry's bits hold its value, read from the bits of the configuration
words (`State.layoutValue`), every group nibble the clamped drive code and its two flags, every CBUS slot the pin's code or the
default code. -/
def Obligations.BuildStoresTheChipFields : Prop :=
  ∀ (s : State) (v : Variant) (answers : List (Half × Bool)), s.BuildRuns v answers →
    ∃ t, exec .build s = .next t
      ∧ (∀ e ∈ (s.params.variant v).layout, s.UserDataOff e.off.toNat (e.off.toNat + 1) →
          t.imgByte e.off &&& e.mask = s.layoutValue v e.kind <<< e.shift.val)
      ∧ (∀ g < s.params.nGroups v, s.UserDataOff (s.params.groupBase v + g / 2) (s.params.groupBase v + g / 2 + 1) →
          ((t.imgByte (byteOf (s.params.groupBase v + g / 2)) >>> (4 * (g % 2))) &&& 0x0F).toNat =
            min (s.cfg.drive g).toNat 3 + 4 * (s.cfg.slowSlew g).toNat + 8 * (s.cfg.schmitt g).toNat)
      ∧ (∀ (k : Nat) (c : CbusSlot), (s.params.variant v).cbusSlots[k]? = some c →
          s.UserDataOff c.off.toNat (c.off.toNat + 1) →
          ((t.imgByte c.off >>> c.shift).toNat % 2 ^ (s.params.variant v).cbusW) =
            if (s.params.variant v).cbusMax < (s.cfg.cbusCode k).toNat then (s.params.variant v).cbusDefault
            else (s.cfg.cbusCode k).toNat)

/-- The fields of the configuration registers, as arithmetic on the words the host wrote (10_state.md R45..R53): which bits
each field is. -/
def Obligations.ConfigurationFieldPositions : Prop :=
  ∀ c : ConfigRegs,
    (c.vid.toNat = c.id.toNat % 2 ^ 16 ∧ c.pid.toNat = c.id.toNat / 2 ^ 16)
      ∧ (c.rel.toNat = c.desc.toNat % 2 ^ 16 ∧ c.selfPowered.toNat = c.desc.toNat / 2 ^ 16 % 2
        ∧ c.remoteWakeup.toNat = c.desc.toNat / 2 ^ 17 % 2 ∧ c.useSerial.toNat = c.desc.toNat / 2 ^ 18 % 2
        ∧ c.isoIn.toNat = c.desc.toNat / 2 ^ 19 % 2 ∧ c.isoOut.toNat = c.desc.toNat / 2 ^ 20 % 2
        ∧ c.isNotPnp.toNat = c.desc.toNat / 2 ^ 21 % 2)
      ∧ c.maxPower = c.power.toNat % 2 ^ 9
      ∧ (c.variantCode.toNat = c.chip.toNat % 2 ^ 4 ∧ c.szovrEn.toNat = c.chip.toNat / 2 ^ 8 % 2
        ∧ c.szovr256.toNat = c.chip.toNat / 2 ^ 9 % 2 ∧ c.cfgValid.toNat = c.chip.toNat / 2 ^ 31)
      ∧ (c.mfrLen = c.strLen.toNat % 2 ^ 7 ∧ c.prodLen = c.strLen.toNat / 2 ^ 8 % 2 ^ 7
        ∧ c.serLen = c.strLen.toNat / 2 ^ 16 % 2 ^ 7)
      ∧ (c.udOffset = c.ud.toNat % 2 ^ 16 ∧ c.udSize = c.ud.toNat / 2 ^ 16)
      ∧ (∀ g : Fin 8, (c.drive g).toNat = c.groups[g].toNat % 2 ^ 8
        ∧ (c.slowSlew g).toNat = c.groups[g].toNat / 2 ^ 8 % 2 ∧ (c.schmitt g).toNat = c.groups[g].toNat / 2 ^ 9 % 2)
      ∧ (∀ ch : Chan, (c.func ch).toNat = (c.channelWord ch).toNat % 2 ^ 4
        ∧ (c.vcp ch).toNat = (c.channelWord ch).toNat / 2 ^ 8 % 2
        ∧ (c.rs485 ch).toNat = (c.channelWord ch).toNat / 2 ^ 9 % 2
        ∧ (c.hicur ch).toNat = (c.channelWord ch).toNat / 2 ^ 10 % 2)
      ∧ ∀ (i : Fin 3) (j : Fin 4), (c.cbusCode (4 * i.val + j.val)).toNat = c.cbus[i].toNat / 2 ^ (8 * j.val) % 2 ^ 8

/-- The user data in the finished image: every byte of it below the trailer (40_build.md R200, R201). -/
def Obligations.BuildStoresTheUserData : Prop :=
  ∀ (s : State) (v : Variant) (answers : List (Half × Bool)), s.BuildRuns v answers →
    ∃ t, exec .build s = .next t
      ∧ ∀ j < s.cfg.udSize, s.cfg.udOffset + j < s.buildSize.bytes - 2 →
          t.imgByte (byteOf (s.cfg.udOffset + j)) = s.ramByte .udb j

/-- The trailer: byte SZ - 2 holds the final checksum's low byte, byte SZ - 1 its high byte (30_encoding.md R153). -/
def Obligations.TrailerIsLittleEndian : Prop :=
  ∀ (s : State) (v : Variant) (answers : List (Half × Bool)), s.BuildRuns v answers →
    ∃ t, exec .build s = .next t
      ∧ t.imgByte (byteOf (s.buildSize.bytes - 2)) = (t.checksumOf v s.buildSize answers).extractLsb' 0 8
      ∧ t.imgByte (byteOf (s.buildSize.bytes - 1)) = (t.checksumOf v s.buildSize answers).extractLsb' 8 8

/-- Step 1's size rule (40_build.md R171): the override when present, else 256 bytes for chip identifiers 0x56 and 0x66 and 128
for every other, whatever the variant; and IMGSIZE is that size after a BUILD that completes. -/
def Obligations.ImageSizeRule : Prop :=
  (∀ s : State, s.phase = .b1 → s.chipidMoved = false → s.params.tables = SourceTables.standard →
      s.act =
        { s with
          chipid := s.devChipid, phase := .b2
          sz :=
            if s.cfg.szovrEn = true then (if s.cfg.szovr256 = true then .b256 else .b128)
            else if s.devChipid = 0x56 ∨ s.devChipid = 0x66 then .b256 else .b128 })
    ∧ ∀ (s : State) (v : Variant) (answers : List (Half × Bool)), s.BuildRuns v answers →
        ∃ t, exec .build s = .next t ∧ t.chipid = s.devChipid
          ∧ t.imgSize =
              (if s.cfg.szovrEn = true then (if s.cfg.szovr256 = true then 0x100 else 0x080)
                else if s.devChipid = 0x56 ∨ s.devChipid = 0x66 then 0x100 else 0x080)

/-- SIZE(v, chipid, cfg) is an argument (00_scope.md R12, 93_implementation_defined.md I16), in the form of log 24, the model's
choice: step 1 takes the size of the first case of its table that holds, else the last size; and every function of the variant,
the chip identifier and the override to the two sizes has a table that passes the check and gives it. -/
def Obligations.SizeIsAnArgument : Prop :=
  (∀ s : State, s.phase = .b1 →
      (∀ (pre post : List SizeCase) (k : SizeCase), s.params.tables.size.cases = pre ++ k :: post →
          (∀ x ∈ pre, ∃ test ∈ x.tests, sizeTestHolds s.params.tables s.cfg s.act.chipid test = false) →
          (∀ test ∈ k.tests, sizeTestHolds s.params.tables s.cfg s.act.chipid test = true) →
          s.act.sz = .ofBytes k.size)
        ∧ ((∀ x ∈ s.params.tables.size.cases,
            ∃ test ∈ x.tests, sizeTestHolds s.params.tables s.cfg s.act.chipid test = false) →
          s.act.sz = .ofBytes s.params.tables.size.otherwise))
    ∧ ∀ size : Variant → Byte → Option Bool → ImgSize, ∃ table : SizeTable, table.fit = true
        ∧ ∀ (t : SourceTables) (c : ConfigRegs) (chipid : Byte) (v : Variant), t.size = table →
            Variant.ofCode? c.variantCode = some v →
            imageSizeFor t c chipid =
              size v chipid (if c.szovrEn = true then some c.szovr256 else none)

/-- After a BUILD, a CHECKSUM of the same variant and size that gets the same answers from the device gives the trailer, and
leaves the image alone (40_build.md R206; 42_checksum.md R269). -/
def Obligations.ChecksumReproducesTheTrailer : Prop :=
  ∀ (s : State) (v : Variant) (answers : List (Half × Bool)), s.BuildRuns v answers →
    ∃ t u, exec .build s = .next t
      ∧ exec (.checksum v.code (s.buildSize == .b256)) { t with inputs := answerInputs answers } = .next u
      ∧ u.cksum = t.imgHalf (byteOf (s.buildSize.bytes - 2)) ∧ u.cksum = t.cksum
      ∧ u.img = t.img ∧ u.status.err = .none ∧ u.status.built = false

/-- The raw cursor after a BUILD: STR_START[v] + L, never above 0x179 (10_state.md R60; 40_build.md R184, R185). -/
def Obligations.CursorEndsPastTheTable : Prop :=
  ∀ (s : State) (v : Variant) (answers : List (Half × Bool)), s.BuildRuns v answers →
    ∃ t, exec .build s = .next t
      ∧ t.cur.toNat = (s.params.strStart v).toNat + tableLength v s.cfg ∧ t.cur.toNat ≤ 0x179

/-! ### BUILD: its phases -/

/-- Step 3 zeroes the image, except the FT230X factory window, and nothing at or above SZ, which no other step of the sequencer
writes either (40_build.md R175). -/
def Obligations.ZeroFillSparesTheFactoryWindow : Prop :=
  (∀ (s : State) (v : Variant), s.phase = .b3 → Variant.ofCode? s.cfg.variantCode = some v →
      s.params.tables = SourceTables.standard →
      s.act.phase = .b4 ∧ ∀ a : ImgAddr, s.act.imgByte a =
        if a.toNat < s.sz.bytes ∧ ¬(v = .ft230X ∧ 0x80 ≤ a.toNat ∧ a.toNat < 0xA0) then 0x00 else s.imgByte a)
    ∧ ∀ (s : State) (a : ImgAddr), s.params.check = true → s.sz.bytes ≤ a.toNat → s.act.imgByte a = s.imgByte a

/-- Steps 5 and 6, whatever the table wraps onto (40_build.md R179..R185): from B5, two atomic steps leave every image byte with
the last of the writes of `State.tableWrites` that falls on it (byte `k` of a descriptor at `(start + k) mod SZ`; the slots and
the later bytes win in their order), or as it was, and the raw cursor at STR_START[v] + L. -/
def Obligations.StringTableWrites : Prop :=
  ∀ (s : State) (v : Variant), s.phase = .b5 → Variant.ofCode? s.cfg.variantCode = some v →
    s.act.act.phase = .b7
      ∧ s.act.act.cur.toNat = ((s.params.strStart v).toNat + tableLength v s.cfg) % 2 ^ 16
      ∧ ∀ a : ImgAddr, s.act.act.imgByte a = (lastWrite (s.tableWrites v s.sz.bytes) a.toNat).getD (s.imgByte a)

/-- For a well-formed parameter set the image after step 7 does not depend on the order of the layout's entries nor on that of
its passes (40_build.md R195). -/
def Obligations.StepSevenOrderIndependent : Prop :=
  ∀ (s : State) (v : Variant), s.params.check = true →
    (∀ (l : List LayoutEntry) (a : ImgAddr), l.Perm (s.params.variant v).layout →
        (l.foldl (State.applyEntry v) s).imgByte a = (s.layoutPass v).imgByte a)
      ∧ (∀ a : ImgAddr, ((s.groupPass v).layoutPass v).imgByte a = ((s.layoutPass v).groupPass v).imgByte a)
      ∧ (∀ a : ImgAddr, ((s.cbusPass v).layoutPass v).imgByte a = ((s.layoutPass v).cbusPass v).imgByte a)
      ∧ (∀ a : ImgAddr, ((s.cbusPass v).groupPass v).imgByte a = ((s.groupPass v).cbusPass v).imgByte a)

/-- DEV_CHIPID is sampled once, at step 1: past it, driving the input changes nothing of the run (40_build.md R172). -/
def Obligations.ChipidSampledOnce : Prop :=
  ∀ (s : State) (value : Byte) (n : Nat), s.phase ≠ .bCheck → s.phase ≠ .b1 →
    (driveChipid value s).run n =
      { s.run n with devChipid := value, chipidMoved := (driveChipid value s).chipidMoved }

/-- A DEV_CHIPID that moved before step 1 (70_reset_and_hazards.md R356): the model's choice of log 8. A move while a command
runs is remembered; step 1 then draws the sample, once, as a free value, and sets SZ by it; no other phase changes CHIPID; and
step 7 writes that one value at the CHIP_ID entry. The size is that of the parameter SIZE, at the default tables R171's. -/
def Obligations.MovedChipidIsDrawnOnce : Prop :=
  (∀ (s : State) (value : Byte), s.status.busy = true → value ≠ s.devChipid →
      driveChipid value s = { s with devChipid := value, chipidMoved := true })
    ∧ (∀ s : State, s.phase = .b1 → s.chipidMoved = true →
        s.act =
          { s with
            chipid := Config.unstableChipid s.draws, draws := s.draws + 1, phase := .b2
            sz := imageSizeFor s.params.tables s.cfg (Config.unstableChipid s.draws) }
          ∧ (s.params.tables = SourceTables.standard →
            s.act.sz =
              if s.cfg.szovrEn = true then (if s.cfg.szovr256 = true then .b256 else .b128)
              else if Config.unstableChipid s.draws = 0x56 ∨ Config.unstableChipid s.draws = 0x66 then .b256 else .b128))
    ∧ (∀ s : State, s.phase ≠ .b1 → s.act.chipid = s.chipid)
    ∧ ∀ (s : State) (v : Variant), s.phase = .b7 → s.params.check = true →
        Variant.ofCode? s.cfg.variantCode = some v →
        ∀ e ∈ (s.params.variant v).layout, e.kind = .chipId → s.act.imgByte e.off = s.chipid

/-! ### The host bus -/

/-- A host write while BUSY = 1 only sets HOST_VIOL, CMD included, and does not touch the running command; acceptance and
reset clear the bit (10_state.md R40; 60_exceptions.md R309). -/
def Obligations.BusyWritesOnlySetHostViol : Prop :=
  (∀ (s : State) (a : BusAddr) (w : Word), s.rst = false → s.status.busy = true →
      arrive (.hostWrite a w) s = .next { s with status := { s.status with hostViol := true } })
    ∧ (∀ (s : State) (n : Nat),
        State.run n { s with status := { s.status with hostViol := true } } =
          { s.run n with status := { (s.run n).status with hostViol := true } })
    ∧ ∀ (s : State) (w : Word), (s.accept w).status.hostViol = false ∧ (assertReset s).status.hostViol = false

/-- Configuration registers: a host write to an idle ILE is read back with the reserved bits 0, and every other word of the
map keeps its value (10_state.md R31, R32, R45..R53), at every capacity set that the map can hold (00_scope.md R12). At the
default capacities this is the spec's map; which registers and bits stand below them is the model's choice of log 23. -/
def Obligations.ConfigRegistersReadBack : Prop :=
  ∀ (s : State) (a : BusAddr) (w m : Word), s.rst = false → s.status.busy = false → s.params.caps.fit = true →
    cfgWritable s.params.caps (4 * a.toNat) = some m →
    (hostRead a (hostWrite a w s)).hostRdata = w &&& m
      ∧ (∀ b : BusAddr, b ≠ a → (hostRead b (hostWrite a w s)).hostRdata = (hostRead b s).hostRdata)
      ∧ hostWrite a w s = { s with cfg := (hostWrite a w s).cfg }

/-- RAM windows, by byte address: a host write to an idle ILE stores the four bytes little-endian, and no other byte of any RAM
changes (10_state.md R31, R54..R56; 20_memory.md R103). -/
def Obligations.WindowsStoreLittleEndian : Prop :=
  ∀ (s : State) (a : BusAddr) (w : Word) (r : RamId) (k : Nat), s.rst = false → s.status.busy = false →
    s.params.caps.fit = true → 4 * a.toNat = windowBase r + 4 * k → k < windowWords r →
    (hostRead a (hostWrite a w s)).hostRdata = w
      ∧ (∀ j < 4, (hostWrite a w s).ramByte r (4 * k + j) = w.extractLsb' (8 * j) 8)
      ∧ (∀ (q : RamId) (b : Nat), ¬(q = r ∧ 4 * k ≤ b ∧ b < 4 * k + 4) →
          (hostWrite a w s).ramByte q b = s.ramByte q b)
      ∧ (hostWrite a w s).cfg = s.cfg ∧ (hostWrite a w s).status = s.status ∧ (hostWrite a w s).cmd = s.cmd

/-- Read-only and unmapped words ignore writes, unmapped words read 0, and a host read changes nothing but what the model
records of it (10_state.md R31, R32; logs 9, 11), at every capacity set that the map can hold (00_scope.md R12). At the default
capacities these are the spec's words; that the registers beyond a smaller capacity are unmapped is the model's choice of log 23. -/
def Obligations.UnmappedAndReadOnlyWords : Prop :=
  (∀ (s : State) (a : BusAddr) (w : Word), s.rst = false → s.status.busy = false → s.params.caps.fit = true →
      writeIgnored s.params.caps (4 * a.toNat) → arrive (.hostWrite a w) s = .next s)
    ∧ (∀ (s : State) (a : BusAddr), s.params.caps.fit = true → writeIgnored s.params.caps (4 * a.toNat) →
        0x018 ≤ 4 * a.toNat → (hostRead a s).hostRdata = 0)
    ∧ ∀ (s : State) (a : BusAddr),
        hostRead a s = { s with hostRdata := (hostRead a s).hostRdata, draws := (hostRead a s).draws }

/-- Host reads while BUSY = 1: the IMG window gives a free value, a new one each time, and every other word its current value
(20_memory.md R114). -/
def Obligations.BusyReads : Prop :=
  ∀ (s : State) (a : BusAddr), s.rst = false → s.status.busy = true → s.params.caps.fit = true →
    (0x400 ≤ 4 * a.toNat ∧ 4 * a.toNat < 0x500 →
        (hostRead a s).hostRdata = Config.busyImgRead s.draws ∧ (hostRead a s).draws = s.draws + 1)
      ∧ (4 * a.toNat < 0x400 ∨ 0x500 ≤ 4 * a.toNat →
          (hostRead a s).hostRdata = s.busValue (s.busTarget a) ∧ (hostRead a s).draws = s.draws)

/-- What a host read returns with RST released (10_state.md R31, R33, R34, R41..R56; 20_memory.md R114), word by word of the map
at its byte address, whether or not a command runs: CMD, STATUS, the result registers zero-extended, the configuration registers
that the capacities give (00_scope.md R12; below the defaults, the model's choice of log 23), and the bytes of the windows, the
IMG window's while no command runs. -/
def Obligations.RegisterReads : Prop :=
  ∀ (s : State) (a : BusAddr), s.rst = false → s.params.caps.fit = true →
    (4 * a.toNat = 0x000 → (hostRead a s).hostRdata = s.cmd)
      ∧ (4 * a.toNat = 0x004 → (hostRead a s).hostRdata = s.status.toWord)
      ∧ (4 * a.toNat = 0x008 → (hostRead a s).hostRdata.toNat = s.uarea.toNat)
      ∧ (4 * a.toNat = 0x00C → (hostRead a s).hostRdata.toNat = s.cksum.toNat)
      ∧ (4 * a.toNat = 0x010 → (hostRead a s).hostRdata.toNat = s.encres.toNat)
      ∧ (4 * a.toNat = 0x014 → (hostRead a s).hostRdata.toNat = s.imgSize.toNat)
      ∧ (4 * a.toNat = 0x020 → (hostRead a s).hostRdata = s.cfg.id)
      ∧ (4 * a.toNat = 0x024 → (hostRead a s).hostRdata = s.cfg.desc)
      ∧ (4 * a.toNat = 0x028 → (hostRead a s).hostRdata = s.cfg.power)
      ∧ (4 * a.toNat = 0x02C → (hostRead a s).hostRdata = s.cfg.chip)
      ∧ (4 * a.toNat = 0x030 → (hostRead a s).hostRdata = s.cfg.strLen)
      ∧ (4 * a.toNat = 0x034 → (hostRead a s).hostRdata = s.cfg.ud)
      ∧ (∀ g : Fin 8, g.val < s.params.caps.maxGroups → 4 * a.toNat = 0x040 + 4 * g.val →
          (hostRead a s).hostRdata = s.cfg.groups[g])
      ∧ (∀ i : Fin 4, i.val < s.params.caps.maxChan → 4 * a.toNat = 0x060 + 4 * i.val →
          (hostRead a s).hostRdata = s.cfg.chans[i])
      ∧ (∀ i : Fin 3, 4 * i.val < s.params.caps.maxCbus → 4 * a.toNat = 0x070 + 4 * i.val →
          (hostRead a s).hostRdata = s.cfg.cbus[i])
      ∧ ∀ (r : RamId) (k : Nat), 4 * a.toNat = windowBase r + 4 * k → k < windowWords r →
          (r = .img → s.status.busy = false) →
          ∀ j < 4, (hostRead a s).hostRdata.extractLsb' (8 * j) 8 = s.ramByte r (4 * k + j)

/-- STATUS as the host reads it (10_state.md R34): each field at its bits, 0 everywhere else, and 0 at reset; ERR with the five
codes (10_state.md R38, 60_exceptions.md R302). -/
def Obligations.StatusWordLayout : Prop :=
  State.reset.status.toWord = 0
    ∧ (ErrorCode.none.code = 0 ∧ ErrorCode.noConfiguration.code = 1 ∧ ErrorCode.unknownChip.code = 2
      ∧ ErrorCode.sizeExceeded.code = 3 ∧ ErrorCode.badCommand.code = 4)
    ∧ ∀ t : Status,
    t.toWord.getLsbD 0 = t.busy ∧ t.toWord.getLsbD 1 = t.done ∧ t.toWord.getLsbD 2 = t.built
      ∧ t.toWord.extractLsb' 4 3 = t.err.code
      ∧ t.toWord.getLsbD 8 = t.wDrive ∧ t.toWord.getLsbD 9 = t.wCbus ∧ t.toWord.getLsbD 10 = t.wUdStart
      ∧ t.toWord.getLsbD 11 = t.wUdOvl ∧ t.toWord.getLsbD 12 = t.wRdFail ∧ t.toWord.getLsbD 16 = t.hostViol
      ∧ t.toWord &&& 0xFFFEE088#32 = 0

/-! ### Ending a command, reset -/

/-- How a command ends, with an error or without (60_exceptions.md R306): these fields and nothing else change, and no later
step of the command runs. The DONE output, a level equal to STATUS.DONE (10_state.md R65; 60_exceptions.md R320), rises then, and
falls when a command is accepted and when RST is asserted. -/
def Obligations.EndOfCommand : Prop :=
  ∀ (s : State) (code : ErrorCode),
    s.endWith code =
        { s with
          status := { s.status with err := code, busy := false, done := true }
          phase := .idle, rdwReq := false }
      ∧ (∀ n, (s.endWith code).run n = s.endWith code)
      ∧ s.doneOut = s.status.done ∧ (s.endWith code).doneOut = true
      ∧ (∀ w, (s.accept w).doneOut = false) ∧ (assertReset s).doneOut = false

/-- RST (70_reset_and_hazards.md R340..R342): asserting it, at any time, gives every register its reset value; the string RAMs
and UDB keep their contents; IMG keeps its contents if BUSY was 0 and holds no known byte if BUSY was 1. While it is asserted
reads return 0 and writes, CMD included, have no effect. Releasing it changes nothing else: the ILE is idle at once (R344 step
1). An RDW_ACK that arrives after the reset is ignored, before the release and after it. -/
def Obligations.ResetInput : Prop :=
  ∀ (s : State) (k : Nat) (rest : List Arrival), s.canRun = false → s.inputs = ⟨k, .reset true⟩ :: rest →
    ∃ t, step s = .next t
      ∧ t =
          { State.reset with
            strM := s.strM, strP := s.strP, strS := s.strS, udb := s.udb, img := t.img, imgGen := t.imgGen
            rst := true, devChipid := s.devChipid, draws := s.draws, hostRdata := s.hostRdata, params := s.params
            inputs := rest }
      ∧ (s.status.busy = false → t.img = s.img ∧ t.imgGen = s.imgGen)
      ∧ (s.status.busy = true → ∀ a : ImgAddr, t.img.read? a.toNat = none
          ∧ t.imgByte a = Config.powerOnByte .img (s.imgGen + 1) a.toNat)
      ∧ ∀ (j : Nat) (later : List Arrival),
          (∀ a w, step { t with inputs := ⟨j, .hostWrite a w⟩ :: later } = .next { t with inputs := later })
            ∧ (∀ a, step { t with inputs := ⟨j, .hostRead a⟩ :: later } =
                .next { t with hostRdata := 0, inputs := later })
            ∧ step { t with inputs := ⟨j, .reset false⟩ :: later } = .next { t with rst := false, inputs := later }
            ∧ ∀ (level : Bool) (data : Half) (err : Bool),
                step { t with rst := level, inputs := ⟨j, .deviceAck data err⟩ :: later } =
                  .next { t with rst := level, inputs := later }

/-- The reset values of 10_state.md R66; an unspecified RAM byte holds no known value. -/
def Obligations.ResetValues : Prop :=
  State.reset.cmd = 0 ∧ State.reset.status.toWord = 0 ∧ State.reset.uarea = 0 ∧ State.reset.cksum = 0
    ∧ State.reset.encres = 0 ∧ State.reset.imgSize = 0
    ∧ (∀ (a : BusAddr) (m : Word), cfgWritable Capacities.standard (4 * a.toNat) = some m →
        State.reset.busValue (State.reset.busTarget a) = 0)
    ∧ (∀ (r : RamId) (a : Nat), (State.reset.ram r).read? a = none)
    ∧ State.reset.phase = .idle ∧ State.reset.cmdv = ⟨0, 0, 0, false⟩ ∧ State.reset.cur = 0
    ∧ State.reset.sz.bytes = 128 ∧ State.reset.chipid = 0 ∧ State.reset.ua = 0 ∧ State.reset.ck = 0
    ∧ State.reset.wi = 0 ∧ State.reset.rdwWait = false ∧ State.reset.rdwReq = false ∧ State.reset.rdwIdx = 0

/-- Just after reset, with any well-formed parameter set: BUILD ends with NoConfiguration, ENCODE works, CHECKSUM of an unread
device ends normally (70_reset_and_hazards.md R343). -/
def Obligations.CommandsAfterReset : Prop :=
  ∀ p : Params, p.check = true → p.tables = SourceTables.standard →
    (∃ t, exec .build { State.reset with params := p } = .next t ∧ t.status.toWord = 0x012)
      ∧ (∃ t, exec (.encode 6 3) { State.reset with params := p } = .next t ∧ t.encres = 4 ∧ t.status.toWord = 0x002)
      ∧ ∃ t, exec (.checksum 4 false) { State.reset with params := p } = .next t ∧ t.status.toWord = 0x002

/-! ### Every run -/

/-- The invariant holds at reset. -/
def Obligations.ResetMeetsTheInvariant : Prop := State.reset.Inv

/-- Every step keeps the invariant: RAMs in canonical form and inside their sizes, reserved bits 0, the sequencer where its
command visits, STATUS consistent, UAREA and IMGSIZE in their ranges (10_state.md R32, R36..R38, R41, R44, R54..R58; 42_checksum.md
R266). -/
def Obligations.StepKeepsTheInvariant : Prop := ∀ s t : State, s.Inv → step s = .next t → t.Inv

/-- A run never faults: the ILE does not trap (60_exceptions.md R308). -/
def Obligations.NoFaultUnderTheInvariant : Prop := ∀ (s : State) (f : Fault), s.Inv → step s ≠ .fault f

/-- The one refusal is of an ill-formed parameter set, before any command runs (40_build.md R194; 93_implementation_defined.md
I11). That a set which fails on any of the eight variants refuses every command, ENCODE and CHECKSUM too, is the model's reading
of R194 (log 6), and so is what it asks of the sizes, the offsets and the capacities (logs 17, 23, 24). -/
def Obligations.OnlyIllFormedParametersAreRefused : Prop :=
  (∀ (s : State) (r : Refusal), step s = .refused r → r = .illFormedParameters ∧ s.params.check = false)
    ∧ ∀ (i : Instr) (s : State), s.rst = false → s.status.busy = false → s.params.check = false →
        exec i s = .refused .illFormedParameters

/-- Every command without a device read ends within the steps 70_reset_and_hazards.md R361 counts: BUILD in 12 phase steps and at
most 127 folds, ENCODE in one step. -/
def Obligations.CommandsEndWithinTheirBound : Prop :=
  ∀ s : State, s.Ready → s.params.tables = SourceTables.standard → s.inputs = [] →
    (¬(s.cfg.variantCode = Variant.ft230X.code ∧ s.buildSize = .b256) →
        ((startBuild (s.accept (encode .build))).run (12 + 127)).status.busy = false)
      ∧ (∀ var fn, ((startEncode (s.accept (encode (.encode var fn)))).run 1).status.busy = false)
      ∧ ∀ var szb, ¬(var = Variant.ft230X.code ∧ szb = true) →
          ((startChecksum (s.accept (encode (.checksum var szb)))).run (1 + 127)).status.busy = false

/-- With BUSY = 0 and no input the ILE changes nothing (60_exceptions.md R327). -/
def Obligations.IdleChangesNothing : Prop :=
  ∀ s : State, s.status.busy = false → s.inputs = [] → step s = .next s

/-- What a command can write: no configuration register, no string RAM, not UDB, from any state and wherever it stops, at its
acceptance and wherever it goes on (10_state.md R57). -/
def Obligations.CommandsWriteNoConfiguration : Prop :=
  (∀ (i : Instr) (s t : State), exec i s = .next t →
      t.cfg = s.cfg ∧ t.strM = s.strM ∧ t.strP = s.strP ∧ t.strS = s.strS ∧ t.udb = s.udb ∧ t.params = s.params)
    ∧ ∀ s t : State, s.canRun = true → step s = .next t →
        t.cfg = s.cfg ∧ t.strM = s.strM ∧ t.strP = s.strP ∧ t.strS = s.strS ∧ t.udb = s.udb ∧ t.params = s.params

/-- ENCODE and CHECKSUM never write IMG, UAREA or IMGSIZE; ENCODE keeps CKSUM, and BUILD and CHECKSUM keep ENCRES; from any state
and wherever the command stops, at its acceptance and wherever it goes on (60_exceptions.md R307). -/
def Obligations.CommandsWriteOnlyTheirOwnResults : Prop :=
  ∀ s t : State,
    (∀ var fn, exec (.encode var fn) s = .next t →
        t.img = s.img ∧ t.uarea = s.uarea ∧ t.imgSize = s.imgSize ∧ t.cksum = s.cksum)
      ∧ (∀ var szb, exec (.checksum var szb) s = .next t →
          t.img = s.img ∧ t.uarea = s.uarea ∧ t.imgSize = s.imgSize ∧ t.encres = s.encres)
      ∧ (exec .build s = .next t → t.encres = s.encres)
      ∧ (s.canRun = true → step s = .next t →
          (s.cmdv.op ≠ opBuild → t.img = s.img ∧ t.uarea = s.uarea ∧ t.imgSize = s.imgSize)
            ∧ (s.cmdv.op = opEncode → t.cksum = s.cksum)
            ∧ (s.cmdv.op ≠ opEncode → t.encres = s.encres))

/-- BUILT is 1 after a command only if it was a BUILD that ended without an error, whether it ended at once or went on after a
wait or an input (10_state.md R37). -/
def Obligations.BuiltOnlyByBuild : Prop :=
  (∀ (i : Instr) (s t : State), s.rst = false → s.status.busy = false → exec i s = .next t → t.status.built = true →
      i = .build ∧ t.status.err = .none ∧ t.status.done = true ∧ t.status.busy = false)
    ∧ ∀ s t : State, s.canRun = true → step s = .next t → s.status.built = false → t.status.built = true →
        s.cmdv.op = opBuild ∧ t.status.err = .none ∧ t.status.done = true ∧ t.status.busy = false
end

