-- ==== Sys2Proof/Laws/Memory.lean ====
section
/-! SUPPORT. The laws of a RAM: reading after a write, and the canonical form every write keeps. -/

namespace Sys2Proof.Machine

/-- A write gives its value back and leaves every other address alone. -/
theorem Memory.read?_write (m : Memory) (a b : Nat) (v : Byte) :
    (m.write a v).read? b = if b = a then some v else m.read? b := by
  induction m with
  | nil => simp [Memory.write, Memory.read?]
  | cons c m ih =>
    obtain ⟨k, w⟩ := c
    simp only [Memory.write]
    split
    · simp [Memory.read?]
    · split
      · subst k; by_cases h : b = a <;> simp [Memory.read?, h]
      · by_cases h : b = k
        · subst h; simp [Memory.read?, Ne.symm ‹¬a = b›]
        · simp [Memory.read?, h, ih]

theorem Memory.above_write (m : Memory) (k a : Nat) (v : Byte) (hk : k < a) (h : Memory.above k m = true) :
    Memory.above k (m.write a v) = true := by
  induction m with
  | nil => simpa [Memory.write, Memory.above] using hk
  | cons c m ih =>
    obtain ⟨b, w⟩ := c
    simp only [Memory.above, List.all_cons, Bool.and_eq_true, decide_eq_true_eq] at h ih
    simp only [Memory.write]
    split
    · simpa [Memory.above, hk, h.1] using h.2
    · split
      · simpa [Memory.above, hk] using h.2
      · simpa [Memory.above, h.1] using ih h.2

/-- A write keeps the canonical form. -/
theorem Memory.wf_write (m : Memory) (a : Nat) (v : Byte) (h : m.wf = true) : (m.write a v).wf = true := by
  induction m with
  | nil => simp [Memory.write, Memory.wf, Memory.above]
  | cons c m ih =>
    obtain ⟨b, w⟩ := c
    simp only [Memory.wf, Bool.and_eq_true] at h
    simp only [Memory.write]
    split
    · rename_i hab
      have : Memory.above a m = true := by
        have h1 := h.1
        simp only [Memory.above, List.all_eq_true, decide_eq_true_eq] at h1 ⊢
        exact fun c hc => hab.trans (h1 c hc)
      simp only [Memory.wf, Memory.above, List.all_cons, Bool.and_eq_true, decide_eq_true_eq]
      exact ⟨⟨hab, this⟩, h.1, h.2⟩
    · split
      · subst b; simpa [Memory.wf] using h
      · simp only [Memory.wf, Bool.and_eq_true]
        exact ⟨Memory.above_write m b a v (by omega) h.1, ih h.2⟩

/-- A write below the capacity keeps every address below it. -/
theorem Memory.within_write (m : Memory) (cap a : Nat) (v : Byte) (ha : a < cap) (h : m.within cap = true) :
    (m.write a v).within cap = true := by
  induction m with
  | nil => simpa [Memory.write, Memory.within] using ha
  | cons c m ih =>
    obtain ⟨b, w⟩ := c
    simp only [Memory.within, List.all_cons, Bool.and_eq_true, decide_eq_true_eq] at h ih
    simp only [Memory.write]
    split
    · simpa [Memory.within, ha, h.1] using h.2
    · split
      · simpa [Memory.within, ha] using h.2
      · simpa [Memory.within, h.1] using ih h.2

theorem Memory.read?_of_above (m : Memory) (a : Nat) (h : Memory.above a m = true) : m.read? a = none := by
  induction m with
  | nil => rfl
  | cons c m ih =>
    obtain ⟨b, w⟩ := c
    simp only [Memory.above, List.all_cons, Bool.and_eq_true, decide_eq_true_eq] at h
    simp only [Memory.read?, if_neg (show ¬a = b by omega)]
    exact ih (by simpa [Memory.above] using h.2)

/-- In canonical form, equal reads mean equal memories. -/
theorem Memory.ext_of_wf (m n : Memory) (hm : m.wf = true) (hn : n.wf = true) (h : ∀ a, m.read? a = n.read? a) : m = n := by
  induction m generalizing n with
  | nil =>
    cases n with
    | nil => rfl
    | cons c n => obtain ⟨b, w⟩ := c; simpa [Memory.read?] using h b
  | cons c m ih =>
    obtain ⟨b, w⟩ := c
    cases n with
    | nil => simpa [Memory.read?] using (h b)
    | cons d n =>
      obtain ⟨e, x⟩ := d
      simp only [Memory.wf, Bool.and_eq_true] at hm hn
      have hbe : b = e := by
        have hb := h b
        have he := h e
        simp only [Memory.read?, if_true] at hb he
        by_contra hne
        rw [if_neg hne] at hb
        rw [if_neg (Ne.symm hne)] at he
        rcases Nat.lt_or_gt_of_ne hne with hlt | hlt
        · have : Memory.above b n = true := by
            have h2 := hn.1
            simp only [Memory.above, List.all_eq_true, decide_eq_true_eq] at h2 ⊢
            exact fun c hc => hlt.trans (h2 c hc)
          rw [Memory.read?_of_above _ _ this] at hb; simp at hb
        · have : Memory.above e m = true := by
            have h2 := hm.1
            simp only [Memory.above, List.all_eq_true, decide_eq_true_eq] at h2 ⊢
            exact fun c hc => hlt.trans (h2 c hc)
          rw [Memory.read?_of_above _ _ this] at he; simp at he
      subst hbe
      have hwx : w = x := by simpa [Memory.read?] using h b
      subst hwx
      congr 1
      refine ih n hm.2 hn.2 fun a => ?_
      by_cases hab : a = b
      · subst hab; rw [Memory.read?_of_above _ _ hm.1, Memory.read?_of_above _ _ hn.1]
      · simpa [Memory.read?, hab] using h a

end Sys2Proof.Machine
end

