-- ==== Sys2Proof/Laws/State.lean ====
section
/-! SUPPORT. What each update of the state does to each field: true by rfl, so that no proof unfolds a record update. -/

namespace Sys2Proof.Machine

variable (s : State)

@[simp] theorem State.accept_cmd (w : Word) : (s.accept w).cmd = w := rfl
@[simp] theorem State.accept_status (w : Word) : (s.accept w).status = Status.accepted := rfl
@[simp] theorem State.accept_uarea (w : Word) : (s.accept w).uarea = s.uarea := rfl
@[simp] theorem State.accept_cksum (w : Word) : (s.accept w).cksum = s.cksum := rfl
@[simp] theorem State.accept_encres (w : Word) : (s.accept w).encres = s.encres := rfl
@[simp] theorem State.accept_imgSize (w : Word) : (s.accept w).imgSize = s.imgSize := rfl
@[simp] theorem State.accept_cfg (w : Word) : (s.accept w).cfg = s.cfg := rfl
@[simp] theorem State.accept_strM (w : Word) : (s.accept w).strM = s.strM := rfl
@[simp] theorem State.accept_strP (w : Word) : (s.accept w).strP = s.strP := rfl
@[simp] theorem State.accept_strS (w : Word) : (s.accept w).strS = s.strS := rfl
@[simp] theorem State.accept_udb (w : Word) : (s.accept w).udb = s.udb := rfl
@[simp] theorem State.accept_img (w : Word) : (s.accept w).img = s.img := rfl
@[simp] theorem State.accept_phase (w : Word) : (s.accept w).phase = s.phase := rfl
@[simp] theorem State.accept_cmdv (w : Word) : (s.accept w).cmdv = CmdV.ofWord w := rfl
@[simp] theorem State.accept_cur (w : Word) : (s.accept w).cur = s.cur := rfl
@[simp] theorem State.accept_sz (w : Word) : (s.accept w).sz = s.sz := rfl
@[simp] theorem State.accept_chipid (w : Word) : (s.accept w).chipid = s.chipid := rfl
@[simp] theorem State.accept_ua (w : Word) : (s.accept w).ua = s.ua := rfl
@[simp] theorem State.accept_ck (w : Word) : (s.accept w).ck = s.ck := rfl
@[simp] theorem State.accept_wi (w : Word) : (s.accept w).wi = s.wi := rfl
@[simp] theorem State.accept_rdwWait (w : Word) : (s.accept w).rdwWait = s.rdwWait := rfl
@[simp] theorem State.accept_rdwReq (w : Word) : (s.accept w).rdwReq = s.rdwReq := rfl
@[simp] theorem State.accept_rdwIdx (w : Word) : (s.accept w).rdwIdx = s.rdwIdx := rfl
@[simp] theorem State.accept_rst (w : Word) : (s.accept w).rst = s.rst := rfl
@[simp] theorem State.accept_devChipid (w : Word) : (s.accept w).devChipid = s.devChipid := rfl
@[simp] theorem State.accept_chipidMoved (w : Word) : (s.accept w).chipidMoved = false := rfl
@[simp] theorem State.accept_imgGen (w : Word) : (s.accept w).imgGen = s.imgGen := rfl
@[simp] theorem State.accept_draws (w : Word) : (s.accept w).draws = s.draws := rfl
@[simp] theorem State.accept_hostRdata (w : Word) : (s.accept w).hostRdata = s.hostRdata := rfl
@[simp] theorem State.accept_params (w : Word) : (s.accept w).params = s.params := rfl
@[simp] theorem State.accept_inputs (w : Word) : (s.accept w).inputs = s.inputs := rfl

@[simp] theorem State.endWith_cmd (c : ErrorCode) : (s.endWith c).cmd = s.cmd := rfl
@[simp] theorem State.endWith_status (c : ErrorCode) : (s.endWith c).status = s.status.ended c := rfl
@[simp] theorem State.endWith_uarea (c : ErrorCode) : (s.endWith c).uarea = s.uarea := rfl
@[simp] theorem State.endWith_cksum (c : ErrorCode) : (s.endWith c).cksum = s.cksum := rfl
@[simp] theorem State.endWith_encres (c : ErrorCode) : (s.endWith c).encres = s.encres := rfl
@[simp] theorem State.endWith_imgSize (c : ErrorCode) : (s.endWith c).imgSize = s.imgSize := rfl
@[simp] theorem State.endWith_cfg (c : ErrorCode) : (s.endWith c).cfg = s.cfg := rfl
@[simp] theorem State.endWith_strM (c : ErrorCode) : (s.endWith c).strM = s.strM := rfl
@[simp] theorem State.endWith_strP (c : ErrorCode) : (s.endWith c).strP = s.strP := rfl
@[simp] theorem State.endWith_strS (c : ErrorCode) : (s.endWith c).strS = s.strS := rfl
@[simp] theorem State.endWith_udb (c : ErrorCode) : (s.endWith c).udb = s.udb := rfl
@[simp] theorem State.endWith_img (c : ErrorCode) : (s.endWith c).img = s.img := rfl
@[simp] theorem State.endWith_phase (c : ErrorCode) : (s.endWith c).phase = .idle := rfl
@[simp] theorem State.endWith_cmdv (c : ErrorCode) : (s.endWith c).cmdv = s.cmdv := rfl
@[simp] theorem State.endWith_cur (c : ErrorCode) : (s.endWith c).cur = s.cur := rfl
@[simp] theorem State.endWith_sz (c : ErrorCode) : (s.endWith c).sz = s.sz := rfl
@[simp] theorem State.endWith_chipid (c : ErrorCode) : (s.endWith c).chipid = s.chipid := rfl
@[simp] theorem State.endWith_ua (c : ErrorCode) : (s.endWith c).ua = s.ua := rfl
@[simp] theorem State.endWith_ck (c : ErrorCode) : (s.endWith c).ck = s.ck := rfl
@[simp] theorem State.endWith_wi (c : ErrorCode) : (s.endWith c).wi = s.wi := rfl
@[simp] theorem State.endWith_rdwWait (c : ErrorCode) : (s.endWith c).rdwWait = s.rdwWait := rfl
@[simp] theorem State.endWith_rdwReq (c : ErrorCode) : (s.endWith c).rdwReq = false := rfl
@[simp] theorem State.endWith_rdwIdx (c : ErrorCode) : (s.endWith c).rdwIdx = s.rdwIdx := rfl
@[simp] theorem State.endWith_rst (c : ErrorCode) : (s.endWith c).rst = s.rst := rfl
@[simp] theorem State.endWith_devChipid (c : ErrorCode) : (s.endWith c).devChipid = s.devChipid := rfl
@[simp] theorem State.endWith_chipidMoved (c : ErrorCode) : (s.endWith c).chipidMoved = s.chipidMoved := rfl
@[simp] theorem State.endWith_imgGen (c : ErrorCode) : (s.endWith c).imgGen = s.imgGen := rfl
@[simp] theorem State.endWith_draws (c : ErrorCode) : (s.endWith c).draws = s.draws := rfl
@[simp] theorem State.endWith_hostRdata (c : ErrorCode) : (s.endWith c).hostRdata = s.hostRdata := rfl
@[simp] theorem State.endWith_params (c : ErrorCode) : (s.endWith c).params = s.params := rfl
@[simp] theorem State.endWith_inputs (c : ErrorCode) : (s.endWith c).inputs = s.inputs := rfl

@[simp] theorem State.warn_cmd (w : Warning) : (s.warn w).cmd = s.cmd := rfl
@[simp] theorem State.warn_status (w : Warning) : (s.warn w).status = s.status.warn w := rfl
@[simp] theorem State.warn_uarea (w : Warning) : (s.warn w).uarea = s.uarea := rfl
@[simp] theorem State.warn_cksum (w : Warning) : (s.warn w).cksum = s.cksum := rfl
@[simp] theorem State.warn_encres (w : Warning) : (s.warn w).encres = s.encres := rfl
@[simp] theorem State.warn_imgSize (w : Warning) : (s.warn w).imgSize = s.imgSize := rfl
@[simp] theorem State.warn_cfg (w : Warning) : (s.warn w).cfg = s.cfg := rfl
@[simp] theorem State.warn_strM (w : Warning) : (s.warn w).strM = s.strM := rfl
@[simp] theorem State.warn_strP (w : Warning) : (s.warn w).strP = s.strP := rfl
@[simp] theorem State.warn_strS (w : Warning) : (s.warn w).strS = s.strS := rfl
@[simp] theorem State.warn_udb (w : Warning) : (s.warn w).udb = s.udb := rfl
@[simp] theorem State.warn_img (w : Warning) : (s.warn w).img = s.img := rfl
@[simp] theorem State.warn_phase (w : Warning) : (s.warn w).phase = s.phase := rfl
@[simp] theorem State.warn_cmdv (w : Warning) : (s.warn w).cmdv = s.cmdv := rfl
@[simp] theorem State.warn_cur (w : Warning) : (s.warn w).cur = s.cur := rfl
@[simp] theorem State.warn_sz (w : Warning) : (s.warn w).sz = s.sz := rfl
@[simp] theorem State.warn_chipid (w : Warning) : (s.warn w).chipid = s.chipid := rfl
@[simp] theorem State.warn_ua (w : Warning) : (s.warn w).ua = s.ua := rfl
@[simp] theorem State.warn_ck (w : Warning) : (s.warn w).ck = s.ck := rfl
@[simp] theorem State.warn_wi (w : Warning) : (s.warn w).wi = s.wi := rfl
@[simp] theorem State.warn_rdwWait (w : Warning) : (s.warn w).rdwWait = s.rdwWait := rfl
@[simp] theorem State.warn_rdwReq (w : Warning) : (s.warn w).rdwReq = s.rdwReq := rfl
@[simp] theorem State.warn_rdwIdx (w : Warning) : (s.warn w).rdwIdx = s.rdwIdx := rfl
@[simp] theorem State.warn_rst (w : Warning) : (s.warn w).rst = s.rst := rfl
@[simp] theorem State.warn_devChipid (w : Warning) : (s.warn w).devChipid = s.devChipid := rfl
@[simp] theorem State.warn_chipidMoved (w : Warning) : (s.warn w).chipidMoved = s.chipidMoved := rfl
@[simp] theorem State.warn_imgGen (w : Warning) : (s.warn w).imgGen = s.imgGen := rfl
@[simp] theorem State.warn_draws (w : Warning) : (s.warn w).draws = s.draws := rfl
@[simp] theorem State.warn_hostRdata (w : Warning) : (s.warn w).hostRdata = s.hostRdata := rfl
@[simp] theorem State.warn_params (w : Warning) : (s.warn w).params = s.params := rfl
@[simp] theorem State.warn_inputs (w : Warning) : (s.warn w).inputs = s.inputs := rfl

@[simp] theorem State.goto_cmd (p : Phase) : (s.goto p).cmd = s.cmd := rfl
@[simp] theorem State.goto_status (p : Phase) : (s.goto p).status = s.status := rfl
@[simp] theorem State.goto_uarea (p : Phase) : (s.goto p).uarea = s.uarea := rfl
@[simp] theorem State.goto_cksum (p : Phase) : (s.goto p).cksum = s.cksum := rfl
@[simp] theorem State.goto_encres (p : Phase) : (s.goto p).encres = s.encres := rfl
@[simp] theorem State.goto_imgSize (p : Phase) : (s.goto p).imgSize = s.imgSize := rfl
@[simp] theorem State.goto_cfg (p : Phase) : (s.goto p).cfg = s.cfg := rfl
@[simp] theorem State.goto_strM (p : Phase) : (s.goto p).strM = s.strM := rfl
@[simp] theorem State.goto_strP (p : Phase) : (s.goto p).strP = s.strP := rfl
@[simp] theorem State.goto_strS (p : Phase) : (s.goto p).strS = s.strS := rfl
@[simp] theorem State.goto_udb (p : Phase) : (s.goto p).udb = s.udb := rfl
@[simp] theorem State.goto_img (p : Phase) : (s.goto p).img = s.img := rfl
@[simp] theorem State.goto_phase (p : Phase) : (s.goto p).phase = p := rfl
@[simp] theorem State.goto_cmdv (p : Phase) : (s.goto p).cmdv = s.cmdv := rfl
@[simp] theorem State.goto_cur (p : Phase) : (s.goto p).cur = s.cur := rfl
@[simp] theorem State.goto_sz (p : Phase) : (s.goto p).sz = s.sz := rfl
@[simp] theorem State.goto_chipid (p : Phase) : (s.goto p).chipid = s.chipid := rfl
@[simp] theorem State.goto_ua (p : Phase) : (s.goto p).ua = s.ua := rfl
@[simp] theorem State.goto_ck (p : Phase) : (s.goto p).ck = s.ck := rfl
@[simp] theorem State.goto_wi (p : Phase) : (s.goto p).wi = s.wi := rfl
@[simp] theorem State.goto_rdwWait (p : Phase) : (s.goto p).rdwWait = s.rdwWait := rfl
@[simp] theorem State.goto_rdwReq (p : Phase) : (s.goto p).rdwReq = s.rdwReq := rfl
@[simp] theorem State.goto_rdwIdx (p : Phase) : (s.goto p).rdwIdx = s.rdwIdx := rfl
@[simp] theorem State.goto_rst (p : Phase) : (s.goto p).rst = s.rst := rfl
@[simp] theorem State.goto_devChipid (p : Phase) : (s.goto p).devChipid = s.devChipid := rfl
@[simp] theorem State.goto_chipidMoved (p : Phase) : (s.goto p).chipidMoved = s.chipidMoved := rfl
@[simp] theorem State.goto_imgGen (p : Phase) : (s.goto p).imgGen = s.imgGen := rfl
@[simp] theorem State.goto_draws (p : Phase) : (s.goto p).draws = s.draws := rfl
@[simp] theorem State.goto_hostRdata (p : Phase) : (s.goto p).hostRdata = s.hostRdata := rfl
@[simp] theorem State.goto_params (p : Phase) : (s.goto p).params = s.params := rfl
@[simp] theorem State.goto_inputs (p : Phase) : (s.goto p).inputs = s.inputs := rfl

@[simp] theorem State.dropWrite_cmd : (s.dropWrite).cmd = s.cmd := rfl
@[simp] theorem State.dropWrite_status : (s.dropWrite).status = s.status.violated := rfl
@[simp] theorem State.dropWrite_uarea : (s.dropWrite).uarea = s.uarea := rfl
@[simp] theorem State.dropWrite_cksum : (s.dropWrite).cksum = s.cksum := rfl
@[simp] theorem State.dropWrite_encres : (s.dropWrite).encres = s.encres := rfl
@[simp] theorem State.dropWrite_imgSize : (s.dropWrite).imgSize = s.imgSize := rfl
@[simp] theorem State.dropWrite_cfg : (s.dropWrite).cfg = s.cfg := rfl
@[simp] theorem State.dropWrite_strM : (s.dropWrite).strM = s.strM := rfl
@[simp] theorem State.dropWrite_strP : (s.dropWrite).strP = s.strP := rfl
@[simp] theorem State.dropWrite_strS : (s.dropWrite).strS = s.strS := rfl
@[simp] theorem State.dropWrite_udb : (s.dropWrite).udb = s.udb := rfl
@[simp] theorem State.dropWrite_img : (s.dropWrite).img = s.img := rfl
@[simp] theorem State.dropWrite_phase : (s.dropWrite).phase = s.phase := rfl
@[simp] theorem State.dropWrite_cmdv : (s.dropWrite).cmdv = s.cmdv := rfl
@[simp] theorem State.dropWrite_cur : (s.dropWrite).cur = s.cur := rfl
@[simp] theorem State.dropWrite_sz : (s.dropWrite).sz = s.sz := rfl
@[simp] theorem State.dropWrite_chipid : (s.dropWrite).chipid = s.chipid := rfl
@[simp] theorem State.dropWrite_ua : (s.dropWrite).ua = s.ua := rfl
@[simp] theorem State.dropWrite_ck : (s.dropWrite).ck = s.ck := rfl
@[simp] theorem State.dropWrite_wi : (s.dropWrite).wi = s.wi := rfl
@[simp] theorem State.dropWrite_rdwWait : (s.dropWrite).rdwWait = s.rdwWait := rfl
@[simp] theorem State.dropWrite_rdwReq : (s.dropWrite).rdwReq = s.rdwReq := rfl
@[simp] theorem State.dropWrite_rdwIdx : (s.dropWrite).rdwIdx = s.rdwIdx := rfl
@[simp] theorem State.dropWrite_rst : (s.dropWrite).rst = s.rst := rfl
@[simp] theorem State.dropWrite_devChipid : (s.dropWrite).devChipid = s.devChipid := rfl
@[simp] theorem State.dropWrite_chipidMoved : (s.dropWrite).chipidMoved = s.chipidMoved := rfl
@[simp] theorem State.dropWrite_imgGen : (s.dropWrite).imgGen = s.imgGen := rfl
@[simp] theorem State.dropWrite_draws : (s.dropWrite).draws = s.draws := rfl
@[simp] theorem State.dropWrite_hostRdata : (s.dropWrite).hostRdata = s.hostRdata := rfl
@[simp] theorem State.dropWrite_params : (s.dropWrite).params = s.params := rfl
@[simp] theorem State.dropWrite_inputs : (s.dropWrite).inputs = s.inputs := rfl

@[simp] theorem State.putImg_cmd (a : ImgAddr) (v : Byte) : (s.putImg a v).cmd = s.cmd := rfl
@[simp] theorem State.putImg_status (a : ImgAddr) (v : Byte) : (s.putImg a v).status = s.status := rfl
@[simp] theorem State.putImg_uarea (a : ImgAddr) (v : Byte) : (s.putImg a v).uarea = s.uarea := rfl
@[simp] theorem State.putImg_cksum (a : ImgAddr) (v : Byte) : (s.putImg a v).cksum = s.cksum := rfl
@[simp] theorem State.putImg_encres (a : ImgAddr) (v : Byte) : (s.putImg a v).encres = s.encres := rfl
@[simp] theorem State.putImg_imgSize (a : ImgAddr) (v : Byte) : (s.putImg a v).imgSize = s.imgSize := rfl
@[simp] theorem State.putImg_cfg (a : ImgAddr) (v : Byte) : (s.putImg a v).cfg = s.cfg := rfl
@[simp] theorem State.putImg_strM (a : ImgAddr) (v : Byte) : (s.putImg a v).strM = s.strM := rfl
@[simp] theorem State.putImg_strP (a : ImgAddr) (v : Byte) : (s.putImg a v).strP = s.strP := rfl
@[simp] theorem State.putImg_strS (a : ImgAddr) (v : Byte) : (s.putImg a v).strS = s.strS := rfl
@[simp] theorem State.putImg_udb (a : ImgAddr) (v : Byte) : (s.putImg a v).udb = s.udb := rfl
@[simp] theorem State.putImg_img (a : ImgAddr) (v : Byte) : (s.putImg a v).img = s.img.write a.toNat v := rfl
@[simp] theorem State.putImg_phase (a : ImgAddr) (v : Byte) : (s.putImg a v).phase = s.phase := rfl
@[simp] theorem State.putImg_cmdv (a : ImgAddr) (v : Byte) : (s.putImg a v).cmdv = s.cmdv := rfl
@[simp] theorem State.putImg_cur (a : ImgAddr) (v : Byte) : (s.putImg a v).cur = s.cur := rfl
@[simp] theorem State.putImg_sz (a : ImgAddr) (v : Byte) : (s.putImg a v).sz = s.sz := rfl
@[simp] theorem State.putImg_chipid (a : ImgAddr) (v : Byte) : (s.putImg a v).chipid = s.chipid := rfl
@[simp] theorem State.putImg_ua (a : ImgAddr) (v : Byte) : (s.putImg a v).ua = s.ua := rfl
@[simp] theorem State.putImg_ck (a : ImgAddr) (v : Byte) : (s.putImg a v).ck = s.ck := rfl
@[simp] theorem State.putImg_wi (a : ImgAddr) (v : Byte) : (s.putImg a v).wi = s.wi := rfl
@[simp] theorem State.putImg_rdwWait (a : ImgAddr) (v : Byte) : (s.putImg a v).rdwWait = s.rdwWait := rfl
@[simp] theorem State.putImg_rdwReq (a : ImgAddr) (v : Byte) : (s.putImg a v).rdwReq = s.rdwReq := rfl
@[simp] theorem State.putImg_rdwIdx (a : ImgAddr) (v : Byte) : (s.putImg a v).rdwIdx = s.rdwIdx := rfl
@[simp] theorem State.putImg_rst (a : ImgAddr) (v : Byte) : (s.putImg a v).rst = s.rst := rfl
@[simp] theorem State.putImg_devChipid (a : ImgAddr) (v : Byte) : (s.putImg a v).devChipid = s.devChipid := rfl
@[simp] theorem State.putImg_chipidMoved (a : ImgAddr) (v : Byte) : (s.putImg a v).chipidMoved = s.chipidMoved := rfl
@[simp] theorem State.putImg_imgGen (a : ImgAddr) (v : Byte) : (s.putImg a v).imgGen = s.imgGen := rfl
@[simp] theorem State.putImg_draws (a : ImgAddr) (v : Byte) : (s.putImg a v).draws = s.draws := rfl
@[simp] theorem State.putImg_hostRdata (a : ImgAddr) (v : Byte) : (s.putImg a v).hostRdata = s.hostRdata := rfl
@[simp] theorem State.putImg_params (a : ImgAddr) (v : Byte) : (s.putImg a v).params = s.params := rfl
@[simp] theorem State.putImg_inputs (a : ImgAddr) (v : Byte) : (s.putImg a v).inputs = s.inputs := rfl

@[simp] theorem State.putImgHalf_cmd (a : ImgAddr) (v : Half) : (s.putImgHalf a v).cmd = s.cmd := rfl
@[simp] theorem State.putImgHalf_status (a : ImgAddr) (v : Half) : (s.putImgHalf a v).status = s.status := rfl
@[simp] theorem State.putImgHalf_uarea (a : ImgAddr) (v : Half) : (s.putImgHalf a v).uarea = s.uarea := rfl
@[simp] theorem State.putImgHalf_cksum (a : ImgAddr) (v : Half) : (s.putImgHalf a v).cksum = s.cksum := rfl
@[simp] theorem State.putImgHalf_encres (a : ImgAddr) (v : Half) : (s.putImgHalf a v).encres = s.encres := rfl
@[simp] theorem State.putImgHalf_imgSize (a : ImgAddr) (v : Half) : (s.putImgHalf a v).imgSize = s.imgSize := rfl
@[simp] theorem State.putImgHalf_cfg (a : ImgAddr) (v : Half) : (s.putImgHalf a v).cfg = s.cfg := rfl
@[simp] theorem State.putImgHalf_strM (a : ImgAddr) (v : Half) : (s.putImgHalf a v).strM = s.strM := rfl
@[simp] theorem State.putImgHalf_strP (a : ImgAddr) (v : Half) : (s.putImgHalf a v).strP = s.strP := rfl
@[simp] theorem State.putImgHalf_strS (a : ImgAddr) (v : Half) : (s.putImgHalf a v).strS = s.strS := rfl
@[simp] theorem State.putImgHalf_udb (a : ImgAddr) (v : Half) : (s.putImgHalf a v).udb = s.udb := rfl
@[simp] theorem State.putImgHalf_phase (a : ImgAddr) (v : Half) : (s.putImgHalf a v).phase = s.phase := rfl
@[simp] theorem State.putImgHalf_cmdv (a : ImgAddr) (v : Half) : (s.putImgHalf a v).cmdv = s.cmdv := rfl
@[simp] theorem State.putImgHalf_cur (a : ImgAddr) (v : Half) : (s.putImgHalf a v).cur = s.cur := rfl
@[simp] theorem State.putImgHalf_sz (a : ImgAddr) (v : Half) : (s.putImgHalf a v).sz = s.sz := rfl
@[simp] theorem State.putImgHalf_chipid (a : ImgAddr) (v : Half) : (s.putImgHalf a v).chipid = s.chipid := rfl
@[simp] theorem State.putImgHalf_ua (a : ImgAddr) (v : Half) : (s.putImgHalf a v).ua = s.ua := rfl
@[simp] theorem State.putImgHalf_ck (a : ImgAddr) (v : Half) : (s.putImgHalf a v).ck = s.ck := rfl
@[simp] theorem State.putImgHalf_wi (a : ImgAddr) (v : Half) : (s.putImgHalf a v).wi = s.wi := rfl
@[simp] theorem State.putImgHalf_rdwWait (a : ImgAddr) (v : Half) : (s.putImgHalf a v).rdwWait = s.rdwWait := rfl
@[simp] theorem State.putImgHalf_rdwReq (a : ImgAddr) (v : Half) : (s.putImgHalf a v).rdwReq = s.rdwReq := rfl
@[simp] theorem State.putImgHalf_rdwIdx (a : ImgAddr) (v : Half) : (s.putImgHalf a v).rdwIdx = s.rdwIdx := rfl
@[simp] theorem State.putImgHalf_rst (a : ImgAddr) (v : Half) : (s.putImgHalf a v).rst = s.rst := rfl
@[simp] theorem State.putImgHalf_devChipid (a : ImgAddr) (v : Half) : (s.putImgHalf a v).devChipid = s.devChipid := rfl
@[simp] theorem State.putImgHalf_chipidMoved (a : ImgAddr) (v : Half) : (s.putImgHalf a v).chipidMoved = s.chipidMoved := rfl
@[simp] theorem State.putImgHalf_imgGen (a : ImgAddr) (v : Half) : (s.putImgHalf a v).imgGen = s.imgGen := rfl
@[simp] theorem State.putImgHalf_draws (a : ImgAddr) (v : Half) : (s.putImgHalf a v).draws = s.draws := rfl
@[simp] theorem State.putImgHalf_hostRdata (a : ImgAddr) (v : Half) : (s.putImgHalf a v).hostRdata = s.hostRdata := rfl
@[simp] theorem State.putImgHalf_params (a : ImgAddr) (v : Half) : (s.putImgHalf a v).params = s.params := rfl
@[simp] theorem State.putImgHalf_inputs (a : ImgAddr) (v : Half) : (s.putImgHalf a v).inputs = s.inputs := rfl

@[simp] theorem State.rmwImg_cmd (a : ImgAddr) (m v : Byte) : (s.rmwImg a m v).cmd = s.cmd := rfl
@[simp] theorem State.rmwImg_status (a : ImgAddr) (m v : Byte) : (s.rmwImg a m v).status = s.status := rfl
@[simp] theorem State.rmwImg_uarea (a : ImgAddr) (m v : Byte) : (s.rmwImg a m v).uarea = s.uarea := rfl
@[simp] theorem State.rmwImg_cksum (a : ImgAddr) (m v : Byte) : (s.rmwImg a m v).cksum = s.cksum := rfl
@[simp] theorem State.rmwImg_encres (a : ImgAddr) (m v : Byte) : (s.rmwImg a m v).encres = s.encres := rfl
@[simp] theorem State.rmwImg_imgSize (a : ImgAddr) (m v : Byte) : (s.rmwImg a m v).imgSize = s.imgSize := rfl
@[simp] theorem State.rmwImg_cfg (a : ImgAddr) (m v : Byte) : (s.rmwImg a m v).cfg = s.cfg := rfl
@[simp] theorem State.rmwImg_strM (a : ImgAddr) (m v : Byte) : (s.rmwImg a m v).strM = s.strM := rfl
@[simp] theorem State.rmwImg_strP (a : ImgAddr) (m v : Byte) : (s.rmwImg a m v).strP = s.strP := rfl
@[simp] theorem State.rmwImg_strS (a : ImgAddr) (m v : Byte) : (s.rmwImg a m v).strS = s.strS := rfl
@[simp] theorem State.rmwImg_udb (a : ImgAddr) (m v : Byte) : (s.rmwImg a m v).udb = s.udb := rfl
@[simp] theorem State.rmwImg_phase (a : ImgAddr) (m v : Byte) : (s.rmwImg a m v).phase = s.phase := rfl
@[simp] theorem State.rmwImg_cmdv (a : ImgAddr) (m v : Byte) : (s.rmwImg a m v).cmdv = s.cmdv := rfl
@[simp] theorem State.rmwImg_cur (a : ImgAddr) (m v : Byte) : (s.rmwImg a m v).cur = s.cur := rfl
@[simp] theorem State.rmwImg_sz (a : ImgAddr) (m v : Byte) : (s.rmwImg a m v).sz = s.sz := rfl
@[simp] theorem State.rmwImg_chipid (a : ImgAddr) (m v : Byte) : (s.rmwImg a m v).chipid = s.chipid := rfl
@[simp] theorem State.rmwImg_ua (a : ImgAddr) (m v : Byte) : (s.rmwImg a m v).ua = s.ua := rfl
@[simp] theorem State.rmwImg_ck (a : ImgAddr) (m v : Byte) : (s.rmwImg a m v).ck = s.ck := rfl
@[simp] theorem State.rmwImg_wi (a : ImgAddr) (m v : Byte) : (s.rmwImg a m v).wi = s.wi := rfl
@[simp] theorem State.rmwImg_rdwWait (a : ImgAddr) (m v : Byte) : (s.rmwImg a m v).rdwWait = s.rdwWait := rfl
@[simp] theorem State.rmwImg_rdwReq (a : ImgAddr) (m v : Byte) : (s.rmwImg a m v).rdwReq = s.rdwReq := rfl
@[simp] theorem State.rmwImg_rdwIdx (a : ImgAddr) (m v : Byte) : (s.rmwImg a m v).rdwIdx = s.rdwIdx := rfl
@[simp] theorem State.rmwImg_rst (a : ImgAddr) (m v : Byte) : (s.rmwImg a m v).rst = s.rst := rfl
@[simp] theorem State.rmwImg_devChipid (a : ImgAddr) (m v : Byte) : (s.rmwImg a m v).devChipid = s.devChipid := rfl
@[simp] theorem State.rmwImg_chipidMoved (a : ImgAddr) (m v : Byte) : (s.rmwImg a m v).chipidMoved = s.chipidMoved := rfl
@[simp] theorem State.rmwImg_imgGen (a : ImgAddr) (m v : Byte) : (s.rmwImg a m v).imgGen = s.imgGen := rfl
@[simp] theorem State.rmwImg_draws (a : ImgAddr) (m v : Byte) : (s.rmwImg a m v).draws = s.draws := rfl
@[simp] theorem State.rmwImg_hostRdata (a : ImgAddr) (m v : Byte) : (s.rmwImg a m v).hostRdata = s.hostRdata := rfl
@[simp] theorem State.rmwImg_params (a : ImgAddr) (m v : Byte) : (s.rmwImg a m v).params = s.params := rfl
@[simp] theorem State.rmwImg_inputs (a : ImgAddr) (m v : Byte) : (s.rmwImg a m v).inputs = s.inputs := rfl

@[simp] theorem State.putNext_cmd (b : Byte) : (s.putNext b).cmd = s.cmd := rfl
@[simp] theorem State.putNext_status (b : Byte) : (s.putNext b).status = s.status := rfl
@[simp] theorem State.putNext_uarea (b : Byte) : (s.putNext b).uarea = s.uarea := rfl
@[simp] theorem State.putNext_cksum (b : Byte) : (s.putNext b).cksum = s.cksum := rfl
@[simp] theorem State.putNext_encres (b : Byte) : (s.putNext b).encres = s.encres := rfl
@[simp] theorem State.putNext_imgSize (b : Byte) : (s.putNext b).imgSize = s.imgSize := rfl
@[simp] theorem State.putNext_cfg (b : Byte) : (s.putNext b).cfg = s.cfg := rfl
@[simp] theorem State.putNext_strM (b : Byte) : (s.putNext b).strM = s.strM := rfl
@[simp] theorem State.putNext_strP (b : Byte) : (s.putNext b).strP = s.strP := rfl
@[simp] theorem State.putNext_strS (b : Byte) : (s.putNext b).strS = s.strS := rfl
@[simp] theorem State.putNext_udb (b : Byte) : (s.putNext b).udb = s.udb := rfl
@[simp] theorem State.putNext_img (b : Byte) : (s.putNext b).img = s.img.write s.cursorAddr.toNat b := rfl
@[simp] theorem State.putNext_phase (b : Byte) : (s.putNext b).phase = s.phase := rfl
@[simp] theorem State.putNext_cmdv (b : Byte) : (s.putNext b).cmdv = s.cmdv := rfl
@[simp] theorem State.putNext_cur (b : Byte) : (s.putNext b).cur = s.cur + 1 := rfl
@[simp] theorem State.putNext_sz (b : Byte) : (s.putNext b).sz = s.sz := rfl
@[simp] theorem State.putNext_chipid (b : Byte) : (s.putNext b).chipid = s.chipid := rfl
@[simp] theorem State.putNext_ua (b : Byte) : (s.putNext b).ua = s.ua := rfl
@[simp] theorem State.putNext_ck (b : Byte) : (s.putNext b).ck = s.ck := rfl
@[simp] theorem State.putNext_wi (b : Byte) : (s.putNext b).wi = s.wi := rfl
@[simp] theorem State.putNext_rdwWait (b : Byte) : (s.putNext b).rdwWait = s.rdwWait := rfl
@[simp] theorem State.putNext_rdwReq (b : Byte) : (s.putNext b).rdwReq = s.rdwReq := rfl
@[simp] theorem State.putNext_rdwIdx (b : Byte) : (s.putNext b).rdwIdx = s.rdwIdx := rfl
@[simp] theorem State.putNext_rst (b : Byte) : (s.putNext b).rst = s.rst := rfl
@[simp] theorem State.putNext_devChipid (b : Byte) : (s.putNext b).devChipid = s.devChipid := rfl
@[simp] theorem State.putNext_chipidMoved (b : Byte) : (s.putNext b).chipidMoved = s.chipidMoved := rfl
@[simp] theorem State.putNext_imgGen (b : Byte) : (s.putNext b).imgGen = s.imgGen := rfl
@[simp] theorem State.putNext_draws (b : Byte) : (s.putNext b).draws = s.draws := rfl
@[simp] theorem State.putNext_hostRdata (b : Byte) : (s.putNext b).hostRdata = s.hostRdata := rfl
@[simp] theorem State.putNext_params (b : Byte) : (s.putNext b).params = s.params := rfl
@[simp] theorem State.putNext_inputs (b : Byte) : (s.putNext b).inputs = s.inputs := rfl

@[simp] theorem State.foldWord_cmd (w : Half) : (s.foldWord w).cmd = s.cmd := rfl
@[simp] theorem State.foldWord_status (w : Half) : (s.foldWord w).status = s.status := rfl
@[simp] theorem State.foldWord_uarea (w : Half) : (s.foldWord w).uarea = s.uarea := rfl
@[simp] theorem State.foldWord_cksum (w : Half) : (s.foldWord w).cksum = s.cksum := rfl
@[simp] theorem State.foldWord_encres (w : Half) : (s.foldWord w).encres = s.encres := rfl
@[simp] theorem State.foldWord_imgSize (w : Half) : (s.foldWord w).imgSize = s.imgSize := rfl
@[simp] theorem State.foldWord_cfg (w : Half) : (s.foldWord w).cfg = s.cfg := rfl
@[simp] theorem State.foldWord_strM (w : Half) : (s.foldWord w).strM = s.strM := rfl
@[simp] theorem State.foldWord_strP (w : Half) : (s.foldWord w).strP = s.strP := rfl
@[simp] theorem State.foldWord_strS (w : Half) : (s.foldWord w).strS = s.strS := rfl
@[simp] theorem State.foldWord_udb (w : Half) : (s.foldWord w).udb = s.udb := rfl
@[simp] theorem State.foldWord_img (w : Half) : (s.foldWord w).img = s.img := rfl
@[simp] theorem State.foldWord_phase (w : Half) : (s.foldWord w).phase = s.phase := rfl
@[simp] theorem State.foldWord_cmdv (w : Half) : (s.foldWord w).cmdv = s.cmdv := rfl
@[simp] theorem State.foldWord_cur (w : Half) : (s.foldWord w).cur = s.cur := rfl
@[simp] theorem State.foldWord_sz (w : Half) : (s.foldWord w).sz = s.sz := rfl
@[simp] theorem State.foldWord_chipid (w : Half) : (s.foldWord w).chipid = s.chipid := rfl
@[simp] theorem State.foldWord_ua (w : Half) : (s.foldWord w).ua = s.ua := rfl
@[simp] theorem State.foldWord_ck (w : Half) : (s.foldWord w).ck = fold16 s.ck w := rfl
@[simp] theorem State.foldWord_wi (w : Half) : (s.foldWord w).wi = s.wi + 1 := rfl
@[simp] theorem State.foldWord_rdwWait (w : Half) : (s.foldWord w).rdwWait = s.rdwWait := rfl
@[simp] theorem State.foldWord_rdwReq (w : Half) : (s.foldWord w).rdwReq = s.rdwReq := rfl
@[simp] theorem State.foldWord_rdwIdx (w : Half) : (s.foldWord w).rdwIdx = s.rdwIdx := rfl
@[simp] theorem State.foldWord_rst (w : Half) : (s.foldWord w).rst = s.rst := rfl
@[simp] theorem State.foldWord_devChipid (w : Half) : (s.foldWord w).devChipid = s.devChipid := rfl
@[simp] theorem State.foldWord_chipidMoved (w : Half) : (s.foldWord w).chipidMoved = s.chipidMoved := rfl
@[simp] theorem State.foldWord_imgGen (w : Half) : (s.foldWord w).imgGen = s.imgGen := rfl
@[simp] theorem State.foldWord_draws (w : Half) : (s.foldWord w).draws = s.draws := rfl
@[simp] theorem State.foldWord_hostRdata (w : Half) : (s.foldWord w).hostRdata = s.hostRdata := rfl
@[simp] theorem State.foldWord_params (w : Half) : (s.foldWord w).params = s.params := rfl
@[simp] theorem State.foldWord_inputs (w : Half) : (s.foldWord w).inputs = s.inputs := rfl

@[simp] theorem State.requestWord_cmd : (s.requestWord).cmd = s.cmd := rfl
@[simp] theorem State.requestWord_status : (s.requestWord).status = s.status := rfl
@[simp] theorem State.requestWord_uarea : (s.requestWord).uarea = s.uarea := rfl
@[simp] theorem State.requestWord_cksum : (s.requestWord).cksum = s.cksum := rfl
@[simp] theorem State.requestWord_encres : (s.requestWord).encres = s.encres := rfl
@[simp] theorem State.requestWord_imgSize : (s.requestWord).imgSize = s.imgSize := rfl
@[simp] theorem State.requestWord_cfg : (s.requestWord).cfg = s.cfg := rfl
@[simp] theorem State.requestWord_strM : (s.requestWord).strM = s.strM := rfl
@[simp] theorem State.requestWord_strP : (s.requestWord).strP = s.strP := rfl
@[simp] theorem State.requestWord_strS : (s.requestWord).strS = s.strS := rfl
@[simp] theorem State.requestWord_udb : (s.requestWord).udb = s.udb := rfl
@[simp] theorem State.requestWord_img : (s.requestWord).img = s.img := rfl
@[simp] theorem State.requestWord_phase : (s.requestWord).phase = .kWait := rfl
@[simp] theorem State.requestWord_cmdv : (s.requestWord).cmdv = s.cmdv := rfl
@[simp] theorem State.requestWord_cur : (s.requestWord).cur = s.cur := rfl
@[simp] theorem State.requestWord_sz : (s.requestWord).sz = s.sz := rfl
@[simp] theorem State.requestWord_chipid : (s.requestWord).chipid = s.chipid := rfl
@[simp] theorem State.requestWord_ua : (s.requestWord).ua = s.ua := rfl
@[simp] theorem State.requestWord_ck : (s.requestWord).ck = s.ck := rfl
@[simp] theorem State.requestWord_wi : (s.requestWord).wi = s.wi := rfl
@[simp] theorem State.requestWord_rdwWait : (s.requestWord).rdwWait = true := rfl
@[simp] theorem State.requestWord_rdwReq : (s.requestWord).rdwReq = true := rfl
@[simp] theorem State.requestWord_rdwIdx : (s.requestWord).rdwIdx = s.wi := rfl
@[simp] theorem State.requestWord_rst : (s.requestWord).rst = s.rst := rfl
@[simp] theorem State.requestWord_devChipid : (s.requestWord).devChipid = s.devChipid := rfl
@[simp] theorem State.requestWord_chipidMoved : (s.requestWord).chipidMoved = s.chipidMoved := rfl
@[simp] theorem State.requestWord_imgGen : (s.requestWord).imgGen = s.imgGen := rfl
@[simp] theorem State.requestWord_draws : (s.requestWord).draws = s.draws := rfl
@[simp] theorem State.requestWord_hostRdata : (s.requestWord).hostRdata = s.hostRdata := rfl
@[simp] theorem State.requestWord_params : (s.requestWord).params = s.params := rfl
@[simp] theorem State.requestWord_inputs : (s.requestWord).inputs = s.inputs := rfl

@[simp] theorem State.seedChecksum_cmd : (s.seedChecksum).cmd = s.cmd := rfl
@[simp] theorem State.seedChecksum_status : (s.seedChecksum).status = s.status := rfl
@[simp] theorem State.seedChecksum_uarea : (s.seedChecksum).uarea = s.uarea := rfl
@[simp] theorem State.seedChecksum_cksum : (s.seedChecksum).cksum = s.cksum := rfl
@[simp] theorem State.seedChecksum_encres : (s.seedChecksum).encres = s.encres := rfl
@[simp] theorem State.seedChecksum_imgSize : (s.seedChecksum).imgSize = s.imgSize := rfl
@[simp] theorem State.seedChecksum_cfg : (s.seedChecksum).cfg = s.cfg := rfl
@[simp] theorem State.seedChecksum_strM : (s.seedChecksum).strM = s.strM := rfl
@[simp] theorem State.seedChecksum_strP : (s.seedChecksum).strP = s.strP := rfl
@[simp] theorem State.seedChecksum_strS : (s.seedChecksum).strS = s.strS := rfl
@[simp] theorem State.seedChecksum_udb : (s.seedChecksum).udb = s.udb := rfl
@[simp] theorem State.seedChecksum_img : (s.seedChecksum).img = s.img := rfl
@[simp] theorem State.seedChecksum_phase : (s.seedChecksum).phase = .kLoop := rfl
@[simp] theorem State.seedChecksum_cmdv : (s.seedChecksum).cmdv = s.cmdv := rfl
@[simp] theorem State.seedChecksum_cur : (s.seedChecksum).cur = s.cur := rfl
@[simp] theorem State.seedChecksum_sz : (s.seedChecksum).sz = s.sz := rfl
@[simp] theorem State.seedChecksum_chipid : (s.seedChecksum).chipid = s.chipid := rfl
@[simp] theorem State.seedChecksum_ua : (s.seedChecksum).ua = s.ua := rfl
@[simp] theorem State.seedChecksum_ck : (s.seedChecksum).ck = s.params.tables.ckSeed := rfl
@[simp] theorem State.seedChecksum_wi : (s.seedChecksum).wi = 0 := rfl
@[simp] theorem State.seedChecksum_rdwWait : (s.seedChecksum).rdwWait = s.rdwWait := rfl
@[simp] theorem State.seedChecksum_rdwReq : (s.seedChecksum).rdwReq = s.rdwReq := rfl
@[simp] theorem State.seedChecksum_rdwIdx : (s.seedChecksum).rdwIdx = s.rdwIdx := rfl
@[simp] theorem State.seedChecksum_rst : (s.seedChecksum).rst = s.rst := rfl
@[simp] theorem State.seedChecksum_devChipid : (s.seedChecksum).devChipid = s.devChipid := rfl
@[simp] theorem State.seedChecksum_chipidMoved : (s.seedChecksum).chipidMoved = s.chipidMoved := rfl
@[simp] theorem State.seedChecksum_imgGen : (s.seedChecksum).imgGen = s.imgGen := rfl
@[simp] theorem State.seedChecksum_draws : (s.seedChecksum).draws = s.draws := rfl
@[simp] theorem State.seedChecksum_hostRdata : (s.seedChecksum).hostRdata = s.hostRdata := rfl
@[simp] theorem State.seedChecksum_params : (s.seedChecksum).params = s.params := rfl
@[simp] theorem State.seedChecksum_inputs : (s.seedChecksum).inputs = s.inputs := rfl

@[simp] theorem State.countDown_cmd : (s.countDown).cmd = s.cmd := rfl
@[simp] theorem State.countDown_status : (s.countDown).status = s.status := rfl
@[simp] theorem State.countDown_uarea : (s.countDown).uarea = s.uarea := rfl
@[simp] theorem State.countDown_cksum : (s.countDown).cksum = s.cksum := rfl
@[simp] theorem State.countDown_encres : (s.countDown).encres = s.encres := rfl
@[simp] theorem State.countDown_imgSize : (s.countDown).imgSize = s.imgSize := rfl
@[simp] theorem State.countDown_cfg : (s.countDown).cfg = s.cfg := rfl
@[simp] theorem State.countDown_strM : (s.countDown).strM = s.strM := rfl
@[simp] theorem State.countDown_strP : (s.countDown).strP = s.strP := rfl
@[simp] theorem State.countDown_strS : (s.countDown).strS = s.strS := rfl
@[simp] theorem State.countDown_udb : (s.countDown).udb = s.udb := rfl
@[simp] theorem State.countDown_img : (s.countDown).img = s.img := rfl
@[simp] theorem State.countDown_phase : (s.countDown).phase = s.phase := rfl
@[simp] theorem State.countDown_cmdv : (s.countDown).cmdv = s.cmdv := rfl
@[simp] theorem State.countDown_cur : (s.countDown).cur = s.cur := rfl
@[simp] theorem State.countDown_sz : (s.countDown).sz = s.sz := rfl
@[simp] theorem State.countDown_chipid : (s.countDown).chipid = s.chipid := rfl
@[simp] theorem State.countDown_ua : (s.countDown).ua = s.ua := rfl
@[simp] theorem State.countDown_ck : (s.countDown).ck = s.ck := rfl
@[simp] theorem State.countDown_wi : (s.countDown).wi = s.wi := rfl
@[simp] theorem State.countDown_rdwWait : (s.countDown).rdwWait = s.rdwWait := rfl
@[simp] theorem State.countDown_rdwReq : (s.countDown).rdwReq = s.rdwReq := rfl
@[simp] theorem State.countDown_rdwIdx : (s.countDown).rdwIdx = s.rdwIdx := rfl
@[simp] theorem State.countDown_rst : (s.countDown).rst = s.rst := rfl
@[simp] theorem State.countDown_devChipid : (s.countDown).devChipid = s.devChipid := rfl
@[simp] theorem State.countDown_chipidMoved : (s.countDown).chipidMoved = s.chipidMoved := rfl
@[simp] theorem State.countDown_imgGen : (s.countDown).imgGen = s.imgGen := rfl
@[simp] theorem State.countDown_draws : (s.countDown).draws = s.draws := rfl
@[simp] theorem State.countDown_hostRdata : (s.countDown).hostRdata = s.hostRdata := rfl
@[simp] theorem State.countDown_params : (s.countDown).params = s.params := rfl

end Sys2Proof.Machine
end

