-- ==== Sys2Proof/Laws/Ram.lean ====
section
/-! SUPPORT. Reading a RAM byte after each operation that writes one (00_scope.md R19; 40_build.md R179, R191). -/

namespace Sys2Proof.Machine

theorem State.ramByte_putImg (s : State) (r : RamId) (a : ImgAddr) (v : Byte) (b : Nat) :
    (s.putImg a v).ramByte r b = if r = .img ∧ b = a.toNat then v else s.ramByte r b := by
  cases r <;> simp [State.ramByte, State.ram, State.ramGen, State.putImg, Memory.read?_write]
  split <;> simp_all

@[simp] theorem State.imgByte_putImg (s : State) (a b : ImgAddr) (v : Byte) :
    (s.putImg a v).imgByte b = if b = a then v else s.imgByte b := by
  simp [State.imgByte, State.ramByte_putImg, BitVec.toNat_inj]

@[simp] theorem State.imgByte_putNext (s : State) (b : ImgAddr) (v : Byte) :
    (s.putNext v).imgByte b = if b = s.cursorAddr then v else s.imgByte b :=
  State.imgByte_putImg s s.cursorAddr b v

@[simp] theorem State.imgByte_rmwImg (s : State) (a b : ImgAddr) (mask bits : Byte) :
    (s.rmwImg a mask bits).imgByte b =
      if b = a then (s.imgByte a &&& ~~~mask) ||| (bits &&& mask) else s.imgByte b := by
  simp [State.rmwImg]

/-- A byte of IMG depends only on IMG's contents and their generation. -/
theorem State.imgByte_congr {s t : State} (hi : s.img = t.img) (hg : s.imgGen = t.imgGen) (a : ImgAddr) :
    s.imgByte a = t.imgByte a := by
  simp [State.imgByte, State.ramByte, State.ram, State.ramGen, hi, hg]

/-- A 16-bit field reads back what was written to it. -/
theorem State.imgHalf_putImgHalf (s : State) (a : ImgAddr) (v : Half) : (s.putImgHalf a v).imgHalf a = v := by
  have h : ¬a = a + 1 := by bv_omega
  simp only [State.imgHalf, State.putImgHalf, State.imgByte_putImg, h, if_true, if_false]
  ext i hi
  simp only [BitVec.getElem_append, BitVec.getElem_extractLsb']
  split
  · simp [BitVec.getLsbD_eq_getElem, hi]
  · rename_i hlt
    simp only [show 8 + (i - 8) = i by omega]
    simp [BitVec.getLsbD_eq_getElem, hi]

@[simp] theorem State.imgByte_putImgHalf (s : State) (a b : ImgAddr) (v : Half) :
    (s.putImgHalf a v).imgByte b =
      if b = a + 1 then v.extractLsb' 8 8 else if b = a then v.extractLsb' 0 8 else s.imgByte b := by
  simp [State.putImgHalf]

end Sys2Proof.Machine
end

