-- ==== Sys2Proof/Laws/Canonical.lean ====
section
/-! SUPPORT. Every memory operation keeps the canonical form of the RAMs, and the reset state has it. -/

namespace Sys2Proof.Machine

/-- The size of a RAM (10_state.md R54..R56). -/
def ramSize : RamId → Nat
  | .udb => 256
  | .img => 256
  | _ => 128

theorem State.reset_memoriesWf : State.reset.memoriesWf = true := by decide

theorem State.ram_setRam (s : State) (r q : RamId) (m : Memory) :
    (s.setRam r m).ram q = if q = r then m else s.ram q := by
  cases r <;> cases q <;> rfl

theorem State.memoriesWf_iff (s : State) :
    s.memoriesWf = true ↔ ∀ r, (s.ram r).wf = true ∧ (s.ram r).within (ramSize r) = true := by
  constructor
  · intro h r
    simp only [State.memoriesWf, Bool.and_eq_true] at h
    cases r <;> simp [State.ram, ramSize, h]
  · intro h
    have hm := h .strM
    have hp := h .strP
    have hs := h .strS
    have hu := h .udb
    have hi := h .img
    simp only [State.ram, ramSize] at hm hp hs hu hi
    simp [State.memoriesWf, hm, hp, hs, hu, hi]

theorem State.memoriesWf_putRam (s : State) (r : RamId) (a : Nat) (v : Byte) (ha : a < ramSize r)
    (h : s.memoriesWf = true) : (s.putRam r a v).memoriesWf = true := by
  rw [State.memoriesWf_iff] at h ⊢
  intro q
  rw [State.putRam, State.ram_setRam]
  split
  · next hq =>
    subst hq
    exact ⟨Memory.wf_write _ _ _ (h q).1, Memory.within_write _ _ _ _ ha (h q).2⟩
  · exact h q

theorem State.memoriesWf_putImg (s : State) (a : ImgAddr) (v : Byte) (h : s.memoriesWf = true) :
    (s.putImg a v).memoriesWf = true :=
  State.memoriesWf_putRam s .img a.toNat v a.isLt h

theorem State.memoriesWf_putImgHalf (s : State) (a : ImgAddr) (v : Half) (h : s.memoriesWf = true) :
    (s.putImgHalf a v).memoriesWf = true :=
  State.memoriesWf_putImg _ _ _ (State.memoriesWf_putImg _ _ _ h)

theorem State.memoriesWf_rmwImg (s : State) (a : ImgAddr) (mask bits : Byte) (h : s.memoriesWf = true) :
    (s.rmwImg a mask bits).memoriesWf = true := State.memoriesWf_putImg _ _ _ h

theorem State.memoriesWf_putNext (s : State) (b : Byte) (h : s.memoriesWf = true) :
    (s.putNext b).memoriesWf = true := State.memoriesWf_putImg _ s.cursorAddr b h

theorem State.memoriesWf_putWindow (s : State) (r : RamId) (k : Nat) (w : Word) (hk : 4 * k + 3 < ramSize r)
    (h : s.memoriesWf = true) : (s.putWindow r k w).memoriesWf = true := by
  unfold State.putWindow
  exact State.memoriesWf_putRam _ _ _ _ hk <| State.memoriesWf_putRam _ _ _ _ (by omega) <|
    State.memoriesWf_putRam _ _ _ _ (by omega) <| State.memoriesWf_putRam _ _ _ _ (by omega) h

/-- A window target names a word inside its RAM. -/
def BusTarget.inside : BusTarget → Bool
  | .window r k => 4 * k + 3 < ramSize r
  | _ => true

theorem busTarget_inside : ∀ a : BusAddr, (busTarget a).inside = true := by decide +kernel

/-- A window word of the map lies inside its RAM (10_state.md R54..R56). -/
theorem busTarget_window_inside (a : BusAddr) (r : RamId) (k : Nat) (h : busTarget a = .window r k) :
    4 * k + 3 < ramSize r := by
  have hin := busTarget_inside a
  rw [h] at hin
  simpa [BusTarget.inside] using hin

/-- Where a word of the map stands at these capacities, it is what the whole map says. -/
theorem State.busTarget_eq (s : State) (a : BusAddr) (t : BusTarget) (ht : t ≠ .unmapped) (h : s.busTarget a = t) :
    Machine.busTarget a = t := by
  unfold State.busTarget at h
  split at h
  · exact h
  · exact absurd h.symm ht

/-- At the default capacities every word of the map stands. -/
theorem State.busTarget_standard (s : State) (a : BusAddr) (h : s.params.caps = Capacities.standard) :
    s.busTarget a = Machine.busTarget a := by
  have hall : ∀ b : BusAddr, (Machine.busTarget b).standsAt Capacities.standard = true := by decide +kernel
  simp [State.busTarget, h, hall a]

end Sys2Proof.Machine
end

