-- ==== Sys2Proof/Laws/Frames.lean ====
section
/-! SUPPORT. What each step of BUILD and of the checksum can change, said once: every field that is not named on the
right keeps its value. -/

namespace Sys2Proof.Machine

/-- A fold of image-only steps changes the image only. -/
theorem foldl_img_frame {α : Type} (f : State → α → State) (h : ∀ s a, ∃ m, f s a = { s with img := m })
    (l : List α) (s : State) : ∃ m, l.foldl f s = { s with img := m } := by
  induction l generalizing s with
  | nil => exact ⟨s.img, rfl⟩
  | cons a l ih =>
    obtain ⟨m, hm⟩ := h s a
    obtain ⟨n, hn⟩ := ih (f s a)
    exact ⟨n, by rw [List.foldl_cons, hn, hm]⟩

theorem ofNat16_succ_two (n : Nat) : (1 : Half) + 1 + BitVec.ofNat 16 n = BitVec.ofNat 16 (n + 2) := by
  rw [BitVec.ofNat_add, BitVec.add_comm]; rfl

theorem putDesc_loop_frame (r : RamId) (l : List Nat) (s : State) :
    ∃ m, l.foldl (fun t j => (t.putNext (t.ramByte r j)).putNext 0x00) s =
      { s with img := m, cur := s.cur + BitVec.ofNat 16 (2 * l.length) } := by
  induction l generalizing s with
  | nil => exact ⟨s.img, by simp⟩
  | cons a l ih =>
    obtain ⟨m, hm⟩ := ih ((s.putNext (s.ramByte r a)).putNext 0x00)
    refine ⟨m, ?_⟩
    rw [List.foldl_cons, hm]
    simp only [State.putNext, State.putImg, List.length_cons, Nat.mul_add, Nat.mul_one, ← ofNat16_succ_two,
      BitVec.add_assoc]

/-- A descriptor write changes the image, and advances the cursor by the descriptor's `2n + 2` bytes (40_build.md R180). -/
theorem State.putDesc_frame (s : State) (r : RamId) (n : Nat) :
    ∃ m, s.putDesc r n = { s with img := m, cur := s.cur + BitVec.ofNat 16 (2 * n + 2) } := by
  obtain ⟨m, hm⟩ := putDesc_loop_frame r (List.range n) ((s.putNext (byteOf (2 * n + 2))).putNext 0x03)
  refine ⟨m, ?_⟩
  unfold State.putDesc
  rw [hm]
  simp only [State.putNext, State.putImg, List.length_range, ← ofNat16_succ_two, BitVec.add_assoc]

theorem State.putString_frame (s : State) (o l : ImgAddr) (b : Byte) (r : RamId) (n : Nat) :
    ∃ m, s.putString o l b r n = { s with img := m, cur := s.cur + BitVec.ofNat 16 (2 * n + 2) } := by
  obtain ⟨m, hm⟩ := (s.putImg o b).putDesc_frame r n
  refine ⟨m.write l.toNat (byteOf (2 * n + 2)), ?_⟩
  unfold State.putString
  rw [hm]
  rfl

theorem buildZero_frame (v : Variant) (s : State) : ∃ m, buildZero v s = { s with img := m, phase := .b4 } := by
  have h : ∀ (t : State) (a : Nat), ∃ m,
      (if keptByStep3 s.params v a then t else t.putImg (BitVec.ofNat 8 a) 0x00) = { t with img := m } := by
    intro t a
    split
    · exact ⟨t.img, rfl⟩
    · exact ⟨_, rfl⟩
  obtain ⟨m, hm⟩ := foldl_img_frame _ h (List.range s.sz.bytes) s
  exact ⟨m, by unfold buildZero; rw [hm]; rfl⟩

theorem buildFixed_frame (v : Variant) (s : State) : ∃ m, buildFixed v s = { s with img := m, phase := .b5 } := by
  unfold buildFixed
  simp only [State.putImgHalf, State.putImg, State.goto]
  split <;> exact ⟨_, rfl⟩

theorem threeStrings_frame (t : State) (o1 l1 o2 l2 o3 l3 : ImgAddr) (b1 b2 b3 : Byte) (r1 r2 r3 : RamId)
    (n1 n2 n3 : Nat) :
    ∃ m, ((t.putString o1 l1 b1 r1 n1).putString o2 l2 b2 r2 n2).putString o3 l3 b3 r3 n3 =
      { t with img := m, cur := t.cur + BitVec.ofNat 16 (2 * (n1 + n2 + n3) + 6) } := by
  obtain ⟨m1, h1⟩ := t.putString_frame o1 l1 b1 r1 n1
  rw [h1]
  obtain ⟨m2, h2⟩ := State.putString_frame { t with img := m1, cur := t.cur + BitVec.ofNat 16 (2 * n1 + 2) } o2 l2 b2 r2 n2
  rw [h2]
  obtain ⟨m3, h3⟩ := State.putString_frame
    { t with img := m2, cur := t.cur + BitVec.ofNat 16 (2 * n1 + 2) + BitVec.ofNat 16 (2 * n2 + 2) } o3 l3 b3 r3 n3
  refine ⟨m3, h3.trans ?_⟩
  have hc : t.cur + BitVec.ofNat 16 (2 * n1 + 2) + BitVec.ofNat 16 (2 * n2 + 2) + BitVec.ofNat 16 (2 * n3 + 2)
      = t.cur + BitVec.ofNat 16 (2 * (n1 + n2 + n3) + 6) := by
    rw [BitVec.add_assoc, BitVec.add_assoc, ← BitVec.ofNat_add, ← BitVec.ofNat_add]
    congr 2
    omega
  simp only [hc]

/-- Step 5 advances the cursor from `STR_START[v]` by the three descriptors (40_build.md R181). -/
theorem buildStrings_frame (v : Variant) (s : State) :
    ∃ m, buildStrings v s =
      { s with img := m, phase := .b6,
               cur := s.params.strStart v
                 + BitVec.ofNat 16 (2 * (s.cfg.mfrLen + s.cfg.prodLen + s.cfg.serLen) + 6) } := by
  unfold buildStrings
  dsimp only
  obtain ⟨m, hm⟩ := threeStrings_frame { s with cur := s.params.strStart v } 0x0E 0x0F 0x10 0x11 0x12 0x13 _ _ _
    .strM .strP .strS s.cfg.mfrLen s.cfg.prodLen s.cfg.serLen
  rw [hm]
  exact ⟨m, rfl⟩

/-- Step 6 advances the cursor by its three bytes, on the variants that have them (40_build.md R185). -/
theorem buildPnp_frame (v : Variant) (s : State) :
    ∃ m, buildPnp v s =
      { s with img := m, phase := .b7, cur := s.cur + BitVec.ofNat 16 (if hasPnp v then 3 else 0) } := by
  unfold buildPnp
  split
  · refine ⟨((((s.putNext 0x02).putNext 0x03).putNext (flagByte s.cfg.isNotPnp)).img), ?_⟩
    simp only [State.putNext, State.putImg, State.goto, BitVec.add_assoc]
    rfl
  · exact ⟨s.img, by simp [State.goto]⟩

theorem State.layoutPass_frame (v : Variant) (s : State) : ∃ m, s.layoutPass v = { s with img := m } :=
  foldl_img_frame _ (fun _ _ => ⟨_, rfl⟩) _ s

theorem groupLoop_frame (v : Variant) (l : List Nat) (s : State) :
    ∃ m, l.foldl (State.applyGroup v) s =
      { s with img := m,
               status := { s.status with
                 wDrive := s.status.wDrive || l.any fun g => decide (3 < (s.cfg.drive g).toNat) } } := by
  induction l generalizing s with
  | nil => exact ⟨s.img, by simp⟩
  | cons g l ih =>
    obtain ⟨m, hm⟩ := ih (State.applyGroup v s g)
    refine ⟨m, ?_⟩
    rw [List.foldl_cons, hm]
    by_cases hd : 3 < (s.cfg.drive g).toNat <;>
      simp [State.applyGroup, hd, State.warn, Status.warn, State.rmwImg, State.putImg]

/-- The group pass changes the image, and sets W_DRIVE when a group it reads holds a drive code above 3 (40_build.md R187). -/
theorem State.groupPass_frame (v : Variant) (s : State) :
    ∃ m, s.groupPass v =
      { s with img := m,
               status := { s.status with
                 wDrive := s.status.wDrive
                   || (List.range (s.params.nGroups v)).any fun g => decide (3 < (s.cfg.drive g).toNat) } } :=
  groupLoop_frame v _ s

theorem cbusLoop_frame (v : Variant) (l : List (CbusSlot × Nat)) (s : State) :
    ∃ m, l.foldl (State.applyCbus v) s =
      { s with img := m,
               status := { s.status with
                 wCbus := s.status.wCbus
                   || l.any fun p => decide ((s.params.variant v).cbusMax < (s.cfg.cbusCode p.2).toNat) } } := by
  induction l generalizing s with
  | nil => exact ⟨s.img, by simp⟩
  | cons p l ih =>
    obtain ⟨m, hm⟩ := ih (State.applyCbus v s p)
    refine ⟨m, ?_⟩
    rw [List.foldl_cons, hm]
    by_cases hd : (s.params.variant v).cbusMax < (s.cfg.cbusCode p.2).toNat <;>
      simp [State.applyCbus, hd, State.warn, Status.warn, State.rmwImg, State.putImg]

/-- The CBUS pass changes the image, and sets W_CBUS when a pin's code is above CBUS_MAX (40_build.md R193). -/
theorem State.cbusPass_frame (v : Variant) (s : State) :
    ∃ m, s.cbusPass v =
      { s with img := m,
               status := { s.status with
                 wCbus := s.status.wCbus
                   || (s.params.variant v).cbusSlots.zipIdx.any fun p =>
                        decide ((s.params.variant v).cbusMax < (s.cfg.cbusCode p.2).toNat) } } :=
  cbusLoop_frame v _ s

/-- Step 7 changes the image and the two warnings it names (40_build.md R186, R187, R193). -/
theorem buildChip_frame (v : Variant) (s : State) :
    ∃ m, buildChip v s =
      { s with img := m, phase := .b8,
               status := { s.status with
                 wDrive := s.status.wDrive
                   || (List.range (s.params.nGroups v)).any fun g => decide (3 < (s.cfg.drive g).toNat)
                 wCbus := s.status.wCbus
                   || (s.params.variant v).cbusSlots.zipIdx.any fun p =>
                        decide ((s.params.variant v).cbusMax < (s.cfg.cbusCode p.2).toNat) } } := by
  obtain ⟨m1, h1⟩ := s.layoutPass_frame v
  obtain ⟨m2, h2⟩ := (s.layoutPass v).groupPass_frame v
  obtain ⟨m3, h3⟩ := ((s.layoutPass v).groupPass v).cbusPass_frame v
  refine ⟨m3, ?_⟩
  unfold buildChip
  rw [h3, h2, h1]
  rfl

theorem State.copyUser_frame (s : State) : ∃ m, s.copyUser = { s with img := m } :=
  foldl_img_frame _ (fun _ _ => ⟨_, rfl⟩) _ s

/-- Step 8's warnings (40_build.md R200). -/
theorem State.userWarnings_eq (v : Variant) (s : State) :
    s.userWarnings v =
      { s with status := { s.status with
          wUdStart := s.status.wUdStart || decide (s.cfg.udOffset < (s.params.variant v).freeStart)
          wUdOvl := s.status.wUdOvl
            || decide ((s.params.strStart v).toNat ≤ s.cfg.udOffset + s.cfg.udSize) } } := by
  unfold State.userWarnings
  by_cases h1 : s.cfg.udOffset < (s.params.variant v).freeStart <;>
    by_cases h2 : (s.params.strStart v).toNat ≤ s.cfg.udOffset + s.cfg.udSize <;>
      simp [h1, h2, State.warn, Status.warn]

/-- What step 8 answers: nothing to copy, too large, or the copy (40_build.md R199..R202). -/
theorem buildUser_cases (v : Variant) (s : State) :
    (s.cfg.udSize = 0 ∧ buildUser v s = s.goto .b9)
      ∨ (s.cfg.udSize ≠ 0 ∧ s.sz.bytes < s.cfg.udOffset + s.cfg.udSize
          ∧ buildUser v s = (s.userWarnings v).endWith .sizeExceeded)
      ∨ (s.cfg.udSize ≠ 0 ∧ s.cfg.udOffset + s.cfg.udSize ≤ s.sz.bytes
          ∧ buildUser v s = (s.userWarnings v).copyUser.goto .b9) := by
  by_cases h0 : s.cfg.udSize = 0
  · exact .inl ⟨h0, by simp [buildUser, h0]⟩
  · by_cases h1 : s.sz.bytes < s.cfg.udOffset + s.cfg.udSize
    · exact .inr (.inl ⟨h0, h1, by simp [buildUser, h0, h1]⟩)
    · exact .inr (.inr ⟨h0, by omega, by simp [buildUser, h0, h1]⟩)

/-- Step 2 answers the budget's value, and goes on exactly when it is not negative (40_build.md R173). -/
theorem buildBudget_eq (v : Variant) (s : State) :
    buildBudget v s =
      if userArea s.params v s.cfg < 0 then { s with ua := userArea s.params v s.cfg }.endWith .sizeExceeded
      else { s with ua := userArea s.params v s.cfg, phase := .b3 } := rfl

/-- The answer of a device read, as one equation (10_state.md R64; 42_checksum.md R267). -/
theorem State.takeAnswer_eq (s : State) (data : Half) (err : Bool) :
    s.takeAnswer data err =
      { s with rdwReq := false, rdwWait := false, phase := .kLoop, wi := s.wi + 1
               ck := fold16 s.ck (if err then s.params.fallbackWord else data)
               status := { s.status with wRdFail := s.status.wRdFail || err } } := by
  cases err <;> simp [State.takeAnswer, State.warn, Status.warn, State.foldWord]

end Sys2Proof.Machine
end

