-- ==== Sys2Proof/Laws/Sequencer.lean ====
section
/-! SUPPORT. Running the sequencer, issuing a command, and one step of the machine: each said once. -/

namespace Sys2Proof.Machine

theorem State.run_zero (s : State) : s.run 0 = s := rfl

theorem State.run_succ (s : State) (n : Nat) : s.run (n + 1) = if s.canRun then s.tick.run n else s := rfl

/-- An idle sequencer takes no step. -/
theorem State.run_idle (s : State) (n : Nat) (h : s.status.busy = false) : s.run n = s := by
  cases n with
  | zero => rfl
  | succ n => simp [State.run_succ, State.canRun, h]

theorem State.countDown_of_nil (s : State) (h : s.inputs = []) : s.countDown = s := by
  cases s; simp_all [State.countDown]

/-- With no input to come, a running command outside K_WAIT takes its next step. -/
theorem State.run_quiet (s : State) (n : Nat) (hb : s.status.busy = true) (hp : s.phase ≠ .kWait)
    (hi : s.inputs = []) : s.run (n + 1) = s.act.run n := by
  simp [State.run_succ, State.canRun, hb, hp, State.inputDue, hi, State.tick, State.countDown_of_nil s hi]

/-- The sequencer runs in two parts as in one. -/
theorem State.run_add (s : State) (m n : Nat) : s.run (m + n) = (s.run m).run n := by
  induction m generalizing s with
  | zero => simp [State.run_zero]
  | succ m ih =>
    rw [Nat.add_right_comm, State.run_succ, State.run_succ]
    by_cases h : s.canRun = true
    · rw [if_pos h, if_pos h, ih]
    · rw [if_neg h, if_neg h]
      cases n with
      | zero => rfl
      | succ n => rw [State.run_succ, if_neg h]

/-- All a CMD write can do (60_exceptions.md R300). -/
theorem issue_cases (w : Word) (start : State → State) (s : State) :
    (s.rst = true ∧ issue w start s = .next s)
      ∨ (s.rst = false ∧ s.status.busy = true ∧ issue w start s = .next s.dropWrite)
      ∨ (s.rst = false ∧ s.status.busy = false ∧ s.params.check = false
          ∧ issue w start s = .refused .illFormedParameters)
      ∨ (s.Ready ∧ issue w start s = .next ((start (s.accept w)).run seqFuel)) := by
  unfold issue
  rcases hr : s.rst with _ | _
  · rcases hb : s.status.busy with _ | _
    · rcases hp : s.params.check with _ | _
      · simp
      · exact .inr (.inr (.inr ⟨⟨hr, hb, hp⟩, by simp⟩))
    · simp
  · simp

/-- A ready machine issues the command. -/
theorem issue_of_ready (w : Word) (start : State → State) (s : State) (h : s.Ready) :
    issue w start s = .next ((start (s.accept w)).run seqFuel) := by
  simp [issue, h.rstLow, h.notBusy, h.paramsOk]

/-- Every meaning is `issue` of its own word with its own start. -/
theorem exec_eq_issue (i : Instr) (s : State) :
    exec i s = issue (encode i)
      (match i with | .build => startBuild | .encode _ _ => startEncode | .checksum _ _ => startChecksum) s := by
  cases i <;> rfl

/-- All a step can do: the running command goes on, or stands where none can; or the next input lands; or nothing happens. -/
theorem step_cases (s : State) :
    (s.canRun = true ∧ s.coherent = true ∧ step s = .next (s.run seqFuel))
      ∨ (s.canRun = true ∧ s.coherent = false ∧ step s = .fault .incoherentSequencer)
      ∨ (s.canRun = false ∧ s.inputs = [] ∧ step s = .next s)
      ∨ (s.canRun = false ∧ ∃ a rest, s.inputs = a :: rest ∧ step s = arrive a.input { s with inputs := rest }) := by
  unfold step resume landInput
  rcases hc : s.canRun with _ | _
  · cases hi : s.inputs with
    | nil => simp
    | cons a rest => simp
  · rcases hk : s.coherent with _ | _ <;> simp

/-- All an input can do when it lands. -/
theorem arrive_cases (e : Input) (s : State) :
    (∃ a w, e = .hostWrite a w ∧ busTarget a = .cmd ∧ arrive e s = writeCmd w s)
      ∨ (∃ a w, e = .hostWrite a w ∧ busTarget a ≠ .cmd ∧ arrive e s = .next (hostWrite a w s))
      ∨ (∃ a, e = .hostRead a ∧ arrive e s = .next (hostRead a s))
      ∨ (∃ b, e = .reset b ∧ arrive e s = .next (resetInput b s))
      ∨ (∃ v, e = .chipId v ∧ arrive e s = .next (driveChipid v s))
      ∨ (∃ d r, e = .deviceAck d r ∧ arrive e s = .next s) := by
  cases e with
  | hostWrite a w =>
    by_cases h : busTarget a = .cmd
    · exact .inl ⟨a, w, rfl, h, by simp [arrive, h]⟩
    · exact .inr (.inl ⟨a, w, rfl, h, by simp [arrive, h]⟩)
  | hostRead a => exact .inr (.inr (.inl ⟨a, rfl, rfl⟩))
  | reset b => exact .inr (.inr (.inr (.inl ⟨b, rfl, rfl⟩)))
  | chipId v => exact .inr (.inr (.inr (.inr (.inl ⟨v, rfl, rfl⟩))))
  | deviceAck d r => exact .inr (.inr (.inr (.inr (.inr ⟨d, r, rfl, rfl⟩))))

/-- All a host write to a word other than CMD can do (10_state.md R31, R32, R40; 70_reset_and_hazards.md R340). -/
theorem hostWrite_cases (a : BusAddr) (w : Word) (s : State) :
    (s.rst = true ∧ hostWrite a w s = s)
      ∨ (s.rst = false ∧ s.status.busy = true ∧ hostWrite a w s = s.dropWrite)
      ∨ (s.rst = false ∧ s.status.busy = false
          ∧ ((∃ r k, s.busTarget a = .window r k ∧ hostWrite a w s = s.putWindow r k w)
              ∨ hostWrite a w s = { s with cfg := s.cfg.write s.params.caps w (s.busTarget a) })) := by
  unfold hostWrite
  rcases hr : s.rst with _ | _
  · rcases hb : s.status.busy with _ | _
    · cases ht : s.busTarget a <;> simp
    · simp
  · simp

/-- All a host read can change: what it returned, and the number of the next free value (10_state.md R32). -/
theorem hostRead_frame (a : BusAddr) (s : State) :
    ∃ w n, hostRead a s = { s with hostRdata := w, draws := n } := by
  unfold hostRead
  split
  · exact ⟨0, s.draws, rfl⟩
  · split
    · exact ⟨_, _, rfl⟩
    · exact ⟨_, s.draws, rfl⟩

end Sys2Proof.Machine
end

