-- ==== Sys2Proof/Laws/Checksum.lean ====
section
/-! SUPPORT. The checksum loop: what a run of plain folds does, and the terms `Safety.lean` speaks of it with. -/

namespace Sys2Proof.Machine

theorem rotl16_eq_rotateLeft (x : Half) : rotl16 x = x.rotateLeft 1 := by
  simp [rotl16, BitVec.rotateLeft, BitVec.rotateLeftAux]

theorem foldFrom_cons (seed w : Half) (ws : List Half) : foldFrom seed (w :: ws) = foldFrom (fold16 seed w) ws := by
  simp [foldFrom, fold16, rotl16_eq_rotateLeft]

theorem foldFrom_append (seed : Half) (us ws : List Half) :
    foldFrom seed (us ++ ws) = foldFrom (foldFrom seed us) ws := by
  simp [foldFrom]

/-- The loop's read of word `i` is image word `i` (42_checksum.md R262). -/
theorem State.imgHalf_two_mul (s : State) (i : Nat) :
    s.imgHalf (2 * BitVec.ofNat 8 i) = s.imageWord i := by
  unfold State.imgHalf State.imageWord
  have h1 : (2 * BitVec.ofNat 8 i : BitVec 8) = BitVec.ofNat 8 (2 * i) := by
    rw [BitVec.ofNat_mul]
    rfl
  have h2 : (BitVec.ofNat 8 (2 * i) + 1 : BitVec 8) = BitVec.ofNat 8 (2 * i + 1) := by
    rw [BitVec.ofNat_add]
    rfl
  rw [h1, h2]

theorem State.imageWords_cons (s : State) (lo hi : Nat) (h : lo < hi) :
    s.imageWords lo hi = s.imageWord lo :: s.imageWords (lo + 1) hi := by
  unfold State.imageWords
  obtain ⟨k, rfl⟩ : ∃ k, hi = lo + 1 + k := ⟨hi - lo - 1, by omega⟩
  rw [show lo + 1 + k - lo = k + 1 by omega, show lo + 1 + k - (lo + 1) = k by omega, List.range'_succ]
  rfl

@[simp] theorem State.imageWords_self (s : State) (lo : Nat) : s.imageWords lo lo = [] := by simp [State.imageWords]

/-- `k` turns of the loop that read the image only, with no input to come: the next `k` words are folded. -/
theorem State.run_folds (s : State) (k i n : Nat) (hb : s.status.busy = true) (hp : s.phase = .kLoop)
    (hi : s.inputs = []) (hk : i + k ≤ s.wordBound) (hw : s.wi = BitVec.ofNat 8 i)
    (hplain : ∀ j, i ≤ j → j < i + k → s.on230X = true →
      j ≠ s.params.tables.skipLo ∧ ¬(s.params.tables.liveLo ≤ j ∧ j < s.params.tables.liveHi)) :
    s.run (k + n) =
      ({ s with ck := foldFrom s.ck (s.imageWords i (i + k)), wi := BitVec.ofNat 8 (i + k) } : State).run n := by
  have hbd : s.wordBound < 128 := by
    unfold State.wordBound
    cases s.sz <;> decide
  induction k generalizing s i with
  | zero =>
    simp [foldFrom]
    cases s
    simp_all
  | succ k ih =>
    rw [show k + 1 + n = (k + n) + 1 by omega, State.run_quiet s _ hb (by simp [hp]) hi]
    have hwi : s.wi.toNat = i := by rw [hw]; simp; omega
    have hact : s.act = s.foldWord (s.imageWord i) := by
      have hp1 := hplain i (le_refl _) (by omega)
      simp only [State.act, hp, State.checksumStep, hwi, show i < s.wordBound by omega, if_true]
      rw [← State.imgHalf_two_mul, ← hw]
      by_cases h230 : s.on230X = true
      · have := hp1 h230
        simp only [h230, Bool.true_and]
        rw [if_neg (by simpa using this.1), if_neg (by simpa using this.2)]
      · simp [h230]
    rw [hact]
    rw [ih (s.foldWord (s.imageWord i)) (i + 1) hb hp hi]
    · congr 1
      have h1 : ∀ w a b, (s.foldWord w).imageWords a b = s.imageWords a b := by intros; rfl
      simp only [h1, State.foldWord_ck]
      rw [State.imageWords_cons s i (i + (k + 1)) (by omega), foldFrom_cons,
        show i + 1 + k = i + (k + 1) by omega]
      rfl
    · show i + 1 + k ≤ s.wordBound
      omega
    · show s.wi + 1 = _
      rw [hw]
      bv_omega
    · intro j h1 h2 h3
      exact hplain j (by omega) (by omega) h3
    · exact hbd

/-- CMDV of a CHECKSUM word. -/
theorem CmdV.ofWord_checksum (var : Nibble) (szb : Bool) :
    CmdV.ofWord (encode (.checksum var szb)) = ⟨opChecksum, var, 0, szb⟩ := by
  revert var szb
  decide

/-- CMDV of the BUILD word. -/
theorem CmdV.ofWord_build : CmdV.ofWord (encode .build) = ⟨opBuild, 0, 0, false⟩ := by decide

/-- The end of the loop, for CHECKSUM (42_checksum.md R260). -/
theorem State.finishChecksum_checksum (s : State) (h : s.cmdv.op = opChecksum) :
    s.finishChecksum = { s with cksum := s.ck }.endWith .none := by
  simp [State.finishChecksum, h, opChecksum, opBuild]

/-- The end of the loop, for BUILD (42_checksum.md R268). -/
theorem State.finishChecksum_build (s : State) (h : s.cmdv.op = opBuild) :
    s.finishChecksum =
      { s.putImgHalf (BitVec.ofNat 8 (s.sz.bytes - 2)) s.ck with cksum := s.ck, phase := .b10 } := by
  simp [State.finishChecksum, h]

end Sys2Proof.Machine
end

