-- ==== Sys2Proof/Laws/Claims.lean ====
section
/-! SUPPORT. The small lemmas of the claims' own terms: several steps in a row, the last of a list of writes, the
size rule, the channel words. -/

namespace Sys2Proof.Machine

@[simp] theorem steps_zero (s : State) : steps 0 s = .next s := rfl

theorem steps_succ_of_next {s t : State} (h : step s = .next t) (n : Nat) : steps (n + 1) s = steps n t := by
  simp [steps, h]

/-- Steps after steps are steps. -/
theorem steps_add {s t : State} : ∀ {n : Nat}, steps n s = .next t → ∀ m, steps (n + m) s = steps m t
  | 0, h, m => by cases h; simp
  | n + 1, h, m => by
    rw [Nat.add_right_comm]
    rw [steps] at h
    split at h
    · rename_i r hr
      rw [steps_succ_of_next hr, steps_add h]
    · rename_i o ho
      exact absurd h (ho t)

@[simp] theorem lastWrite_nil (a : Nat) : lastWrite [] a = none := rfl

/-- A later write wins (40_build.md R182). -/
theorem lastWrite_append (xs ys : List (Nat × Byte)) (a : Nat) :
    lastWrite (xs ++ ys) a = (lastWrite ys a).or (lastWrite xs a) := by
  simp only [lastWrite, List.reverse_append, List.find?_append]
  cases List.find? (fun w => w.1 == a) ys.reverse <;> simp

theorem lastWrite_single (b : Nat) (v : Byte) (a : Nat) : lastWrite [(b, v)] a = if b = a then some v else none := by
  by_cases h : b = a <;> simp [lastWrite, h]

/-- The size rule of 40_build.md R171, at the default tables. -/
theorem imageSizeFor_standard (c : ConfigRegs) (chipid : Byte) :
    imageSizeFor SourceTables.standard c chipid =
      if c.szovrEn then ImgSize.ofBit c.szovr256 else if chipid = 0x56 ∨ chipid = 0x66 then .b256 else .b128 := by
  by_cases h1 : chipid = 0x56#8
  · cases h : c.szovrEn <;> cases h' : c.szovr256 <;>
      simp [imageSizeFor, SourceTables.standard, SizeTable.standard, sizeTestHolds, ConfigRegs.sizeOverride, h, h', h1,
        ImgSize.ofBytes, ImgSize.ofBit, List.find?]
  · by_cases h2 : chipid = 0x66#8
    · cases h : c.szovrEn <;> cases h' : c.szovr256 <;>
        simp [imageSizeFor, SourceTables.standard, SizeTable.standard, sizeTestHolds, ConfigRegs.sizeOverride, h, h', h2,
          ImgSize.ofBytes, ImgSize.ofBit, List.find?]
    · cases h : c.szovrEn <;> cases h' : c.szovr256 <;>
        simp [imageSizeFor, SourceTables.standard, SizeTable.standard, sizeTestHolds, ConfigRegs.sizeOverride, h, h', h1,
          h2, ImgSize.ofBytes, ImgSize.ofBit, List.find?]

/-- The channel register a field is read from is the one its position names. -/
theorem channelWord_eq (c : ConfigRegs) (ch : Chan) : c.channelWord ch = c.chan ch := by cases ch <;> rfl

end Sys2Proof.Machine
end

