-- ==== Sys2Proof/Laws/PerInstr.lean ====
section
/-! SUPPORT. The statements made of every instruction as syntax, one lemma for each constructor of `Instr`. -/

namespace Sys2Proof.Laws

/-- The word of an instruction belongs to its own row of the opcode map and to no other (30_encoding.md R132, R133). -/
def EncodeLegal.Statement (i : Instr) : Prop := ∀ r ∈ opcodeRows, r.accepts (encode i) = decide (r = i.row)

theorem EncodeLegal.build : EncodeLegal.Statement .build := by
  unfold EncodeLegal.Statement
  decide

theorem EncodeLegal.encode (var fn : Nibble) : EncodeLegal.Statement (.encode var fn) := by
  unfold EncodeLegal.Statement
  revert var fn
  decide

theorem EncodeLegal.checksum (var : Nibble) (szb : Bool) : EncodeLegal.Statement (.checksum var szb) := by
  unfold EncodeLegal.Statement
  revert var szb
  decide

end Sys2Proof.Laws
end

