-- ==== Sys2Proof/Machine/HostScript.lean ====
section
/-! DEFINITION. Command mnemonics and the host-script lines of 30_encoding.md R136, R137, as inputs of the machine. -/

namespace Sys2Proof.Machine

/-- A variant's name in a mnemonic (30_encoding.md R136). -/
def variantName (c : Nibble) : String :=
  match Variant.ofCode? c with
  | some .am => "AM"
  | some .bm => "BM"
  | some .r => "R"
  | some .ft2232C => "2232C"
  | some .ft2232H => "2232H"
  | some .ft4232H => "4232H"
  | some .ft232H => "232H"
  | some .ft230X => "230X"
  | none => toString c.toNat

/-- A function's name in a mnemonic (30_encoding.md R136). -/
def fnName (c : Nibble) : String :=
  match ChannelFn.ofCode? c with
  | some .uart => "UART"
  | some .fifo => "FIFO"
  | some .opto => "OPTO"
  | some .cpu => "CPU"
  | some .ft1284 => "FT1284"
  | none => toString c.toNat

/-- A command as its mnemonic (30_encoding.md R136). -/
def mnemonicText : Instr → String
  | .build => "BUILD"
  | .encode var fn => "ENCODE " ++ fnName fn ++ ", " ++ variantName var
  | .checksum var szb => "CHECKSUM " ++ variantName var ++ ", " ++ toString (ImgSize.ofBit szb).bytes

/-- The bus address of a byte address (10_state.md R30). -/
def busAddr (byteAddr : Nat) : BusAddr := BitVec.ofNat 9 (byteAddr / 4)

/-- A line of a host script (30_encoding.md R137). -/
inductive HostOp
  | wr (addr : Nat) (value : Word)
  | rd (addr : Nat)
  | cmd (i : Instr)
  | wait
  | run (i : Instr)
  | wrstr (window : Nat) (text : List Byte)

/-- Four bytes a word, little-endian, the last word padded with 0x00 (30_encoding.md R137). -/
def packWords : List Byte → List Word
  | [] => []
  | b0 :: b1 :: b2 :: b3 :: rest => (b3 ++ b2 ++ b1 ++ b0 : BitVec (8 + 8 + 8 + 8)) :: packWords rest
  | [b0, b1, b2] => [(0#8 ++ b2 ++ b1 ++ b0 : BitVec (8 + 8 + 8 + 8))]
  | [b0, b1] => [(0#16 ++ b1 ++ b0 : BitVec (16 + 8 + 8))]
  | [b0] => [(0#24 ++ b0 : BitVec (24 + 8))]

/-- One `wr` a word at consecutive words of a window. -/
def writeWords : Nat → List Word → List Arrival
  | _, [] => []
  | addr, w :: ws => ⟨0, .hostWrite (busAddr addr) w⟩ :: writeWords (addr + 4) ws

/-- The inputs a line expands to (30_encoding.md R137). A line other than `wait` lands before the running command takes
another step; `wait` is the last of its polls, the read of STATUS that lands when the command has stopped. DESIGN CHOICE
(safe: the earlier polls change nothing, 10_state.md R32), log 22. -/
def HostOp.expand : HostOp → List Arrival
  | .wr addr value => [⟨0, .hostWrite (busAddr addr) value⟩]
  | .rd addr => [⟨0, .hostRead (busAddr addr)⟩]
  | .cmd i => [⟨0, .hostWrite (busAddr 0x000) (encode i)⟩]
  | .wait => [⟨seqFuel, .hostRead (busAddr 0x004)⟩]
  | .run i => [⟨0, .hostWrite (busAddr 0x000) (encode i)⟩, ⟨seqFuel, .hostRead (busAddr 0x004)⟩]
  | .wrstr window text => writeWords window (packWords text)

/-- The inputs of a script. -/
def scriptInputs (script : List HostOp) : List Arrival := script.flatMap HostOp.expand

end Sys2Proof.Machine
end

