-- ==== Sys2Proof/Tests/Slice0.lean ====
section
/-! SUPPORT. Tests by evaluation, their expected values from the spec, and for each statement with hypotheses a state and
operands that meet them. -/

namespace Sys2Proof.Tests

open Sys2Proof Sys2Proof.Machine

/-! ### Ill-formed words and parameters are refused (30_encoding.md R134; 40_build.md R194) -/

theorem test_wf_op0_refused : wellFormedWord 0x00000000#32 = false := by decide
theorem test_wf_op4_refused : wellFormedWord 0x00000004#32 = false := by decide
theorem test_wf_op15_refused : wellFormedWord 0x0000000F#32 = false := by decide
theorem test_wf_build_var_refused : wellFormedWord 0x00000011#32 = false := by decide
theorem test_wf_build_fn_refused : wellFormedWord 0x00000101#32 = false := by decide
theorem test_wf_build_szb_refused : wellFormedWord 0x00001001#32 = false := by decide
theorem test_wf_build_res_refused : wellFormedWord 0x80000001#32 = false := by decide
theorem test_wf_encode_szb_refused : wellFormedWord 0x00001002#32 = false := by decide
theorem test_wf_encode_res_refused : wellFormedWord 0x00002002#32 = false := by decide
theorem test_wf_checksum_fn_refused : wellFormedWord 0x00000103#32 = false := by decide
theorem test_wf_checksum_res_refused : wellFormedWord 0x00002003#32 = false := by decide

/-- TP with another layout, group count and CBUS width for AM. -/
def paramsWith (layout : List LayoutEntry) (nGroups cbusW : Nat) (slots : List CbusSlot) : Params :=
  { Params.test with
    variants := { Params.test.variants with
      am := { testVariant with layout := layout, groupBase := 0x14, nGroups := nGroups, cbusW := cbusW, cbusSlots := slots } } }

theorem test_params_tp_accepted : Params.test.check = true := by decide +kernel
theorem test_params_last_offset_accepted :
    (paramsWith [⟨.chipId, 0x7D, 0xFF, 0⟩] 8 8 []).check = true := by decide +kernel
/-- R194 condition 1: 0x7E is a trailer byte of a 128-byte image. -/
theorem test_params_offset_refused : (paramsWith [⟨.chipId, 0x7E, 0xFF, 0⟩] 0 4 []).check = false := by decide +kernel
/-- R194 condition 2: a header slot. -/
theorem test_params_header_slot_refused :
    (paramsWith [⟨.chipId, 0x13, 0xFF, 0⟩] 0 4 []).check = false := by decide +kernel
/-- R194 condition 3: CHIP_ID on a group byte. -/
theorem test_params_overlap_refused :
    (paramsWith [⟨.chipId, 0x14, 0xFF, 0⟩] 1 4 []).check = false := by decide +kernel
/-- R194 condition 4: FIFO does not fit a mask without bit 0. -/
theorem test_params_value_refused :
    (paramsWith [⟨.chipId, 0x0B, 0xFF, 0⟩, ⟨.chType .a, 0x00, 0x0E, 0⟩] 0 4 []).check = false := by decide +kernel
/-- R194 condition 5: nine groups; a slot past bit 7. -/
theorem test_params_groups_refused :
    (paramsWith [⟨.chipId, 0x0B, 0xFF, 0⟩] 9 4 []).check = false := by decide +kernel
theorem test_params_slot_refused :
    (paramsWith [⟨.chipId, 0x0B, 0xFF, 0⟩] 0 4 [⟨0x0C, 5⟩]).check = false := by decide +kernel
/-- R194 condition 7: no CHIP_ID entry; two of them. -/
theorem test_params_no_chipid_refused : (paramsWith [] 0 4 []).check = false := by decide +kernel
theorem test_params_two_chipids_refused :
    (paramsWith [⟨.chipId, 0x0B, 0xFF, 0⟩, ⟨.chipId, 0x00, 0xFF, 0⟩] 0 4 []).check = false := by decide +kernel
/-- R194 condition 6: CHANC where only A and B have a register. -/
theorem test_params_channel_refused :
    { paramsWith [⟨.chipId, 0x0B, 0xFF, 0⟩, ⟨.chVcp .c, 0x00, 0x01, 0⟩] 0 4 [] with
      caps := { Capacities.standard with maxChan := 2 } }.check = false := by decide +kernel
/-- 20_memory.md R108: a 16-bit field at an odd offset. -/
theorem test_params_odd_offset_refused :
    { Params.test with tables := { SourceTables.standard with offRel := 0x07 } }.check = false := by decide +kernel
/-- 00_scope.md R13: a size that is neither 128 nor 256. -/
theorem test_params_size_refused :
    { Params.test with tables := { SourceTables.standard with size := ⟨[⟨[.bigChipid], 512⟩], 128⟩ } }.check = false := by
  decide +kernel
/-- 10_state.md R31: no room for eleven CBUS slots. -/
theorem test_params_capacity_refused :
    { Params.test with caps := { Capacities.standard with maxCbus := 11 } }.check = false := by decide +kernel

/-! ### Decoding, from words written out bit by bit (30_encoding.md R130, R132, R140, R141) -/

theorem test_decode_build : decode 0b00000000000000000000000000000001#32 = .ok .build := by decide
/-- FN = 4 (FT1284), VAR = 4 (2232H), OP = 2: 95_test_vectors.md 2.2. -/
theorem test_decode_encode : decode 0b00000000000000000000010001000010#32 = .ok (.encode 4 4) := by decide
/-- SZB = 1, VAR = 7 (230X), OP = 3: 30_encoding.md R136. -/
theorem test_decode_checksum : decode 0b00000000000000000001000001110011#32 = .ok (.checksum 7 true) := by decide
theorem test_decodeTableWord_checksum : decodeTableWord 32 0x1073 = some (.checksum 7 true) := by decide

/-! ### One step of each command -/

/-- The host's script as the machine's next inputs. -/
def script (s : State) (lines : List HostOp) : State := { s with inputs := scriptInputs lines }

/-- The state after an outcome; the machine after reset where there is none. -/
def after (o : Host.Outcome State Fault Refusal) : State :=
  match o with
  | .next t => t
  | _ => State.reset

/-- `ENCODE CPU, 232H` ends with ENCRES = 4 and STATUS = 0x002 (41_channel_encoder.md R240). -/
theorem test_encode_cpu_232h :
    (after (step (script .reset [.cmd (.encode 6 3)]))).encres = 4
      ∧ (after (step (script .reset [.cmd (.encode 6 3)]))).status.toWord = 0x002 := by decide +kernel

/-- `ENCODE FT1284, 2232H` ends with ENCRES = 0 (41_channel_encoder.md R240). -/
theorem test_encode_ft1284_2232h : (after (exec (.encode 4 4) { State.reset with encres := 9 })).encres = 0 := by
  decide +kernel

/-- IMG with every byte of a 128-byte image known to be 0. -/
def zeroImage : State := { State.reset with img := (List.range 128).map fun a => (a, 0) }

/-- An all-zero image folds to 0x5555 for 63 words (42_checksum.md R271). -/
theorem test_checksum_zero_2232h : (after (exec (.checksum 4 false) zeroImage)).cksum = 0x5555 := by decide +kernel

/-- And to 0xAAAA for the 18 words of 230X at 128 bytes (42_checksum.md R270, R271). -/
theorem test_checksum_zero_230x : (after (exec (.checksum 7 false) zeroImage)).cksum = 0xAAAA := by decide +kernel

/-- The configuration of 95_test_vectors.md B1. -/
def b1 : State :=
  { State.reset with
    devChipid := 0x46
    cfg := { ConfigRegs.reset with
      id := 0x60100403, desc := 0x00040700, power := 0x000001F4, strLen := 0x00000A04, chip := 0x80000004
      groups := #v[0, 0, 0x100, 0x100, 0, 0, 0, 0], chans := #v[0, 0x100, 0, 0] }
    strM := [(0, 0x46), (1, 0x54), (2, 0x44), (3, 0x49)]
    strP := [(0, 0x44), (1, 0x75), (2, 0x61), (3, 0x6C), (4, 0x20), (5, 0x52), (6, 0x53), (7, 0x32), (8, 0x33), (9, 0x32)] }

/-- B1: STATUS, UAREA, IMGSIZE, CKSUM, CUR, and IMG 0x00..0x1F (95_test_vectors.md). -/
theorem test_build_b1 :
    (fun t : State => (t.status.toWord, t.uarea, t.imgSize, t.cksum, t.cur, (List.range 0x20).map fun a => t.imgByte (byteOf a)))
        (after (exec .build b1)) =
      (0x006, 186, 0x080, 0xF442, 0xBF,
        [0x00, 0x08, 0x03, 0x04, 0x10, 0x60, 0x00, 0x07, 0x80, 0xFA, 0x08, 0x00, 0x00, 0x44, 0x9A, 0x0A,
         0xA4, 0x16, 0xBA, 0x02, 0x00, 0x00, 0x00, 0x00, 0x46, 0x00, 0x0A, 0x03, 0x46, 0x00, 0x54, 0x00]) := by
  decide +kernel

/-- V-BLD-14: sixty "M" on 2232H wrap the table (95_test_vectors.md 2.1). -/
theorem test_build_wrapped_table :
    (fun t : State => (t.uarea, t.cksum, t.cur, (List.range 0x20).map fun a => t.imgByte (byteOf a)))
        (after (exec .build
          { State.reset with
            devChipid := 0x46
            cfg := { ConfigRegs.reset with id := 0x60100403, strLen := 60, chip := 0x80000004 }
            strM := (List.range 60).map fun a => (a, 0x4D) })) =
      (94, 0xFD59, 0x11B,
        [0x40, 0x00, 0x4D, 0x00, 0x4D, 0x00, 0x4D, 0x00, 0x4D, 0x00, 0x45, 0x00, 0x00, 0x00, 0x4D, 0x7A,
         0x94, 0x02, 0x96, 0x02, 0x02, 0x03, 0x02, 0x03, 0x46, 0x03, 0x00, 0x03, 0x4D, 0x00, 0x4D, 0x00]) := by
  decide +kernel

/-! ### States that meet the hypotheses of the statements -/

theorem test_reset_ready : State.reset.Ready := ⟨rfl, rfl, test_params_tp_accepted⟩

/-- A loaded configuration: CFG_CHIP with a size override, one string length register, one user-data register. -/
def loaded (v : Variant) (size256 : Bool) (strLen ud : Word) (answers : List (Half × Bool)) : State :=
  { State.reset with
    cfg := { ConfigRegs.reset with
      chip := 0x80000100 ||| (if size256 then 0x200 else 0) ||| v.code.setWidth 32, strLen := strLen, ud := ud }
    inputs := answerInputs answers }

/-- Sixteen answers, the last a failed read. -/
def sixteen : List (Half × Bool) := List.replicate 15 (0x1234, false) ++ [(0, true)]

/-- What `BuildPasses` asks of a loaded configuration, as one evaluation. -/
theorem buildPasses_of (v : Variant) (size256 : Bool) (strLen ud : Word) (answers : List (Half × Bool))
    (h : (let s := loaded v size256 strLen ud answers
      s.params.check && s.cfg.cfgValid && decide (Variant.ofCode? s.cfg.variantCode = some v)
        && decide (0 ≤ userArea s.params v s.cfg)
        && (decide (s.cfg.udSize = 0) || decide (s.cfg.udOffset + s.cfg.udSize ≤ s.buildSize.bytes))) = true) :
    (loaded v size256 strLen ud answers).BuildPasses v := by
  simp only [Bool.and_eq_true, Bool.or_eq_true, decide_eq_true_eq] at h
  obtain ⟨⟨⟨⟨h1, h2⟩, h3⟩, h4⟩, h5⟩ := h
  exact ⟨⟨rfl, rfl, h1⟩, rfl, h2, h3, h4, h5⟩

/-- What `BuildRuns` asks of a loaded configuration, as one evaluation. -/
theorem buildRuns_of (v : Variant) (size256 : Bool) (strLen ud : Word) (answers : List (Half × Bool))
    (h : (let s := loaded v size256 strLen ud answers
      (s.params.check && s.cfg.cfgValid && decide (Variant.ofCode? s.cfg.variantCode = some v)
        && decide (0 ≤ userArea s.params v s.cfg)
        && (decide (s.cfg.udSize = 0) || decide (s.cfg.udOffset + s.cfg.udSize ≤ s.buildSize.bytes)))
        && decide (answers.length = readsNeeded v s.buildSize)) = true) :
    (loaded v size256 strLen ud answers).BuildRuns v answers :=
  have h := (Bool.and_eq_true _ _).mp h
  ⟨buildPasses_of _ _ _ _ _ h.1, of_decide_eq_true h.2, rfl⟩

/-- BuildCompletes, TrailerIsLittleEndian, ImageSizeRule, ChecksumReproducesTheTrailer, CursorEndsPastTheTable: the largest
budget of 2232H, UA = 0 (40_build.md R184), and a wrapped table. -/
theorem test_witness_build_wrapped : (loaded .ft2232H false 107 0 []).BuildRuns .ft2232H [] :=
  buildRuns_of _ _ _ _ _ (by decide +kernel)

/-- The same, on 230X with the device's sixteen answers, and user data that ends at SZ (BuildStoresTheUserData). -/
theorem test_witness_build_live : (loaded .ft230X true 0 0x001000F0 sixteen).BuildRuns .ft230X sixteen :=
  buildRuns_of _ _ _ _ _ (by decide +kernel)

/-- No user data, whatever UD_OFFSET holds (40_build.md R170 corner case 6). -/
theorem test_witness_build_no_user_data : (loaded .am false 0 0x0000FFFF []).BuildRuns .am [] :=
  buildRuns_of _ _ _ _ _ (by decide +kernel)

/-- BuildWritesOnlyItsImage, BuildImageByteByByte: 44 characters on 230X, whose table ends at 0x101 and wraps onto byte 0x00
(40_build.md R184), with user data that ends at the factory window. -/
theorem test_witness_image_frame :
    (loaded .ft230X true 44 0x00010080 sixteen).BuildRuns .ft230X sixteen
      ∧ (loaded .ft230X true 44 0x00010080 sixteen).buildSize = .b256 :=
  ⟨buildRuns_of _ _ _ _ _ (by decide +kernel), by decide +kernel⟩

/-- BuildStoresTheFixedFields: a table that wraps onto byte 0x00 and user data from byte 0x0B on, on a variant with a
configuration byte; user data that ends before byte 0x02, on one without. -/
theorem test_witness_fixed_fields :
    (loaded .ft2232H false 47 0x0001000B []).BuildRuns .ft2232H []
      ∧ (loaded .ft2232H false 47 0x0001000B []).tableStart .ft2232H
          + tableLength .ft2232H (loaded .ft2232H false 47 0x0001000B []).cfg = 129
      ∧ (loaded .ft2232H false 47 0x0001000B []).UserDataOff 0x02 0x0B :=
  ⟨buildRuns_of _ _ _ _ _ (by decide +kernel), by decide +kernel, by unfold State.UserDataOff; decide +kernel⟩

theorem test_witness_fixed_fields_230x :
    (loaded .ft230X false 44 0x00020000 []).BuildRuns .ft230X []
      ∧ (loaded .ft230X false 44 0x00020000 []).tableStart .ft230X
          + tableLength .ft230X (loaded .ft230X false 44 0x00020000 []).cfg = 129
      ∧ (loaded .ft230X false 44 0x00020000 []).UserDataOff 0x02 0x0B :=
  ⟨buildRuns_of _ _ _ _ _ (by decide +kernel), by decide +kernel, by unfold State.UserDataOff; decide +kernel⟩

/-- BuildStoresTheStringTable: a clean table that step 7 leaves alone, with a PnP trailer, and user data that fills the bytes
between the header slots and the table. -/
theorem test_witness_string_table :
    (loaded .ft2232H false 0x010203 0x00060014 []).BuildRuns .ft2232H []
      ∧ (loaded .ft2232H false 0x010203 0x00060014 []).CleanTable .ft2232H
      ∧ (loaded .ft2232H false 0x010203 0x00060014 []).LayoutOffTable .ft2232H
      ∧ (loaded .ft2232H false 0x010203 0x00060014 []).UserDataOff 0x1A (0x1A + 21)
      ∧ (loaded .ft2232H false 0x010203 0x00060014 []).UserDataOff 0x0E 0x14 :=
  ⟨buildRuns_of _ _ _ _ _ (by decide +kernel), by unfold State.CleanTable; decide +kernel,
    by unfold State.LayoutOffTable; decide +kernel, by unfold State.UserDataOff; decide +kernel,
    by unfold State.UserDataOff; decide +kernel⟩

/-- The same without a trailer, at the largest budget, with user data right behind the table. -/
theorem test_witness_string_table_am :
    (loaded .am true 48 0x000100FA []).BuildRuns .am [] ∧ (loaded .am true 48 0x000100FA []).CleanTable .am
      ∧ (loaded .am true 48 0x000100FA []).LayoutOffTable .am
      ∧ (loaded .am true 48 0x000100FA []).tableStart .am + tableLength .am (loaded .am true 48 0x000100FA []).cfg = 0xFA
      ∧ (loaded .am true 48 0x000100FA []).UserDataOff 0x94 0xFA ∧ (loaded .am true 48 0x000100FA []).UserDataOff 0x0E 0x14 :=
  ⟨buildRuns_of _ _ _ _ _ (by decide +kernel), by unfold State.CleanTable; decide +kernel,
    by unfold State.LayoutOffTable; decide +kernel, by decide +kernel, by unfold State.UserDataOff; decide +kernel,
    by unfold State.UserDataOff; decide +kernel⟩

/-- BuildStoresTheChipFields: a variant with layout entries and groups, and one with CBUS slots, with user data beside the bytes
read: after the CHIP_ID entry at 0x18, after the groups at 0x0C and 0x0D, after the slots at 0x0C. -/
theorem test_witness_chip_fields :
    (loaded .ft2232H false 0 0x00010019 []).BuildRuns .ft2232H []
      ∧ ⟨.chipId, 0x18, 0xFF, 0⟩ ∈ ((loaded .ft2232H false 0 0x00010019 []).params.variant .ft2232H).layout
      ∧ (loaded .ft2232H false 0 0x00010019 []).UserDataOff 0x18 0x19
      ∧ (loaded .ft2232H false 0 0x00010019 []).params.nGroups .ft2232H = 4
      ∧ (loaded .ft2232H false 0 0x0001000E []).BuildRuns .ft2232H []
      ∧ (loaded .ft2232H false 0 0x0001000E []).UserDataOff 0x0D 0x0E :=
  ⟨buildRuns_of _ _ _ _ _ (by decide +kernel), by decide +kernel, by unfold State.UserDataOff; decide +kernel,
    by decide +kernel, buildRuns_of _ _ _ _ _ (by decide +kernel), by unfold State.UserDataOff; decide +kernel⟩

theorem test_witness_cbus_fields :
    (loaded .ft232H false 0 0x0001000D []).BuildRuns .ft232H []
      ∧ ((loaded .ft232H false 0 0x0001000D []).params.variant .ft232H).cbusSlots[1]? = some ⟨0x0C, 4⟩
      ∧ (loaded .ft232H false 0 0x0001000D []).UserDataOff 0x0C 0x0D :=
  ⟨buildRuns_of _ _ _ _ _ (by decide +kernel), by decide +kernel, by unfold State.UserDataOff; decide +kernel⟩

/-- UserDataTooLarge: one byte past the end of the image. -/
theorem test_witness_user_data_too_large :
    (loaded .ft2232H false 0 0 []).BuildRuns .ft2232H []
      ∧ loaded .ft2232H false 0 0 [] =
          { loaded .ft2232H false 0 0x0002007F [] with
            cfg := { (loaded .ft2232H false 0 0x0002007F []).cfg with ud := 0 }, inputs := answerInputs [] }
      ∧ (loaded .ft2232H false 0 0x0002007F []).inputs = []
      ∧ (loaded .ft2232H false 0 0x0002007F []).cfg.udSize ≠ 0
      ∧ (loaded .ft2232H false 0 0x0002007F []).buildSize.bytes <
          (loaded .ft2232H false 0 0x0002007F []).cfg.udOffset + (loaded .ft2232H false 0 0x0002007F []).cfg.udSize :=
  ⟨buildRuns_of _ _ _ _ _ (by decide +kernel), rfl, rfl, by decide +kernel, by decide +kernel⟩

/-- BudgetFailureChangesNothingVisible: 49 characters on AM. -/
theorem test_witness_over_budget :
    (loaded .am false 49 0 []).Ready ∧ (loaded .am false 49 0 []).inputs = []
      ∧ (loaded .am false 49 0 []).cfg.cfgValid = true
      ∧ Variant.ofCode? (loaded .am false 49 0 []).cfg.variantCode = some .am
      ∧ ((loaded .am false 49 0 []).params.tables.base.get .am : Int) <
          2 * ((loaded .am false 49 0 []).cfg.mfrLen + (loaded .am false 49 0 []).cfg.prodLen
            + (loaded .am false 49 0 []).cfg.serLen : Nat) :=
  ⟨⟨rfl, rfl, test_params_tp_accepted⟩, rfl, by decide +kernel, by decide +kernel, by decide +kernel⟩

/-- BuildChecksConfigurationThenVariant: no configuration; a configuration with code 8. -/
theorem test_witness_no_configuration :
    State.reset.Ready ∧ State.reset.inputDue = false ∧ State.reset.cfg.cfgValid = false :=
  ⟨test_reset_ready, rfl, by decide⟩

/-- The machine after reset with CFG_CHIP = 0x80000008. -/
def unknownVariant : State := { State.reset with cfg := { ConfigRegs.reset with chip := 0x80000008 } }

theorem test_witness_unknown_variant :
    unknownVariant.Ready ∧ unknownVariant.inputDue = false ∧ unknownVariant.cfg.cfgValid = true
      ∧ 8 ≤ unknownVariant.cfg.variantCode.toNat :=
  ⟨⟨rfl, rfl, test_params_tp_accepted⟩, rfl, by decide, by decide⟩

/-- UnansweredReadWaitsForEver: a BUILD, and a CHECKSUM, that lack the last of sixteen answers. -/
theorem test_witness_unanswered :
    (loaded .ft230X true 0 0 (sixteen.take 15)).BuildPasses .ft230X
      ∧ (loaded .ft230X true 0 0 (sixteen.take 15)).buildSize = .b256 ∧ (sixteen.take 15).length < 16
      ∧ (loaded .ft230X true 0 0 (sixteen.take 15)).inputs = answerInputs (sixteen.take 15) :=
  ⟨buildPasses_of _ _ _ _ _ (by decide +kernel), by decide +kernel, by decide, rfl⟩

/-- EncodeResult, ChecksumUnknownChip, CommandsEndWithinTheirBound: the machine after reset. -/
theorem test_witness_reset :
    State.reset.Ready ∧ State.reset.inputDue = false ∧ State.reset.inputs = []
      ∧ State.reset.params.tables = SourceTables.standard ∧ 8 ≤ (8 : Nibble).toNat :=
  ⟨test_reset_ready, rfl, rfl, rfl, by decide⟩

/-- CommandsEndWithinTheirBound: a 230X configuration at 128 bytes, and one of another variant at 256. -/
theorem test_witness_bound :
    (loaded .ft230X false 0 0 []).Ready ∧ (loaded .ft230X false 0 0 []).inputs = []
      ∧ ¬((loaded .ft230X false 0 0 []).cfg.variantCode = Variant.ft230X.code
        ∧ (loaded .ft230X false 0 0 []).buildSize = .b256) :=
  ⟨⟨rfl, rfl, test_params_tp_accepted⟩, rfl, by decide +kernel⟩

/-- ChecksumResult: without device reads, and with them. -/
theorem test_witness_checksum :
    State.reset.Ready ∧ Variant.ofCode? 7 = some .ft230X
      ∧ ([] : List (Half × Bool)).length = readsNeeded .ft230X (.ofBit false) ∧ State.reset.inputs = answerInputs [] :=
  ⟨test_reset_ready, by decide, by decide, rfl⟩

theorem test_witness_checksum_live :
    (loaded .ft230X true 0 0 sixteen).Ready ∧ (loaded .ft230X true 0 0 sixteen).params.tables = SourceTables.standard
      ∧ Variant.ofCode? 7 = some .ft230X ∧ sixteen.length = readsNeeded .ft230X (.ofBit true)
      ∧ (loaded .ft230X true 0 0 sixteen).inputs = answerInputs sixteen :=
  ⟨⟨rfl, rfl, test_params_tp_accepted⟩, rfl, by decide, by decide, rfl⟩

/-- WordsFoldedCount: on AM no answer, on 230X at 256 bytes sixteen. -/
theorem test_witness_words :
    ([] : List (Half × Bool)).length = readsNeeded .am .b256 ∧ sixteen.length = readsNeeded .ft230X .b256 := by decide

/-- IllegalWordEndsWithBadCommand: the word 0 at a ready machine. -/
theorem test_witness_illegal :
    (script .reset [.wr 0 0]).Ready ∧ (script .reset [.wr 0 0]).inputs = ⟨0, .hostWrite 0 0⟩ :: []
      ∧ ¬∃ r ∈ opcodeRows, (0 : Word) &&& r.mask = r.pattern :=
  ⟨⟨rfl, rfl, test_params_tp_accepted⟩, by decide, by decide⟩

/-- StepRunsTheDecodedInstruction. -/
theorem test_witness_step :
    (script .reset [.cmd (.encode 6 3)]).canRun = false
      ∧ (script .reset [.cmd (.encode 6 3)]).inputs = ⟨0, .hostWrite 0 0x00000362⟩ :: []
      ∧ decode 0x00000362 = .ok (.encode 6 3) ∧ decodeTableWord 32 0x362 = some (.encode 6 3) := by decide

/-! ### The sequencer part way, the bus and the inputs -/

/-- 230X at 256 bytes before its first device read is answered; then the answer, or a reset, comes. -/
def waiting (e : Input) : State :=
  { State.reset with
    cmd := 0x1073, cmdv := ⟨3, 7, 0, true⟩, status := .accepted, phase := .kWait, sz := .b256, ck := 0xAAAA, wi := 0x40
    rdwWait := true, rdwReq := true, rdwIdx := 0x40, inputs := [⟨0, e⟩] }

/-- A BUILD (`op` 1) or CHECKSUM (`op` 3) that waits for word `wi`, on 230X at 256 bytes. -/
def waitingAt (op : Nibble) (wi : Byte) (answers : List (Half × Bool)) : State :=
  { loaded .ft230X true 0 0 answers with
    cmdv := ⟨op, 7, 0, true⟩, status := .accepted, phase := .kWait, sz := .b256, ck := 0xAAAA, wi := wi
    rdwWait := true, rdwReq := true, rdwIdx := wi }

/-- WaitingCommandGoesOn: the first read, and the last. -/
theorem test_witness_waiting :
    ((waitingAt 3 0x40 sixteen).coherent = true ∧ (waitingAt 3 0x40 sixteen).on230X = true
        ∧ (waitingAt 3 0x40 sixteen).wi.toNat + sixteen.length = 0x50)
      ∧ (waitingAt 1 0x4F [(0, true)]).coherent = true ∧ (waitingAt 1 0x4F [(0, true)]).on230X = true
        ∧ (waitingAt 1 0x4F [(0, true)]).wi.toNat + [((0 : Half), true)].length = 0x50
        ∧ (waitingAt 1 0x4F [(0, true)]).params.tables = SourceTables.standard := by decide +kernel

/-- RunningCommandIgnoresHostAccesses, its first clause: `CHECKSUM 2232H, 128`, which takes 64 steps, with accesses before the
first and before the last of them. -/
theorem test_witness_accesses_at_the_ends :
    (let s := startChecksum (State.reset.accept 0x043);
      s.status.busy && !s.rst && s.coherent && !s.chipidMoved
        && decide ((({ s with inputs := answerInputs [] } : State).run seqFuel).status.busy = false)
        && decide ((({ s with inputs := answerInputs [] } : State).run seqFuel).inputs = [])
        && (({ s with inputs := answerInputs [] } : State).run
            (totalAfter [⟨0, .hostRead 1⟩, ⟨63, .hostWrite 0 1⟩])).status.busy) = true := by decide +kernel

/-- A read and a write before the last answer. -/
theorem interleaved : Interleaves [(0, true)] [⟨0, .hostRead 1⟩, ⟨9, .hostWrite 0x008 1⟩, ⟨100, .deviceAck 0 true⟩] :=
  ⟨by decide, [⟨0, .hostRead 1⟩, ⟨9, .hostWrite 0x008 1⟩], 0, true, rfl⟩

/-- Its second clause: accesses while a BUILD waits for the last answer. -/
theorem test_witness_accesses_while_waiting :
    (waitingAt 1 0x4F [(0, true)]).coherent = true ∧ (waitingAt 1 0x4F [(0, true)]).chipidMoved = false
      ∧ (waitingAt 1 0x4F [(0, true)]).inputs = answerInputs [(0, true)]
      ∧ ((waitingAt 1 0x4F [(0, true)]).run seqFuel).status.busy = false
      ∧ ((waitingAt 1 0x4F [(0, true)]).run seqFuel).inputs = []
      ∧ Interleaves [(0, true)] [⟨0, .hostRead 1⟩, ⟨9, .hostWrite 0x008 1⟩, ⟨100, .deviceAck 0 true⟩] :=
  ⟨by decide, rfl, rfl, by decide +kernel, by decide +kernel, interleaved⟩

/-- CommandEndsDespiteHostAccesses: without device reads, the last access before the last step; and with them, an access before
the first answer. -/
theorem test_witness_command_with_accesses :
    (∃ u, exec (.checksum 4 false) State.reset = .next u ∧ u.status.busy = false ∧ u.inputs = [])
      ∧ (∃ b, exec (.checksum 4 false) { State.reset with inputs := [⟨totalAfter [⟨63, .hostWrite 0 1⟩], .hostRead 1⟩] } = .next b
        ∧ b.status.busy = true)
      ∧ (∃ u, exec (.checksum 7 true) { State.reset with inputs := answerInputs sixteen } = .next u
        ∧ u.status.busy = false ∧ u.inputs = [])
      ∧ Interleaves sixteen (⟨20, .hostWrite 0 1⟩ :: answerInputs sixteen) :=
  ⟨⟨_, rfl, by decide +kernel, by decide +kernel⟩, ⟨_, rfl, by decide +kernel⟩,
    ⟨_, rfl, by decide +kernel, by decide +kernel⟩,
    ⟨by decide, ⟨20, .hostWrite 0 1⟩ :: answerInputs (List.replicate 15 (0x1234, false)), 0, true, by decide⟩⟩

/-- MovedChipidIsDrawnOnce: DEV_CHIPID moves before step 1 of a BUILD; and step 7 of 2232H. -/
theorem test_witness_moved_chipid :
    (let s : State := driveChipid 0x56 { loaded .ft2232H false 0 0 [] with status := .accepted, phase := .b1 };
      s.phase = .b1 ∧ s.chipidMoved = true)
      ∧ (0x56 : Byte) ≠ (loaded .ft2232H false 0 0 []).devChipid
      ∧ ({ loaded .ft2232H false 0 0 [] with phase := .b7 } : State).params.check = true
      ∧ (⟨.chipId, 0x18, 0xFF, 0⟩ : LayoutEntry) ∈ ((loaded .ft2232H false 0 0 []).params.variant .ft2232H).layout :=
  ⟨by decide, by decide, test_params_tp_accepted, by decide⟩

/-- StringTableWrites: before step 5, at the largest budget of 2232H. -/
theorem test_witness_table_writes :
    { loaded .ft2232H false 107 0 [] with phase := .b5 }.phase = .b5
      ∧ Variant.ofCode? { loaded .ft2232H false 107 0 [] with phase := .b5 }.cfg.variantCode = some .ft2232H :=
  ⟨rfl, by decide⟩

/-- `Inv` at a waiting command whose answer comes next. -/
theorem test_waiting_inv : (waiting (.deviceAck 0x1000 false)).Inv where
  memories := rfl
  reserved := ⟨by decide, by decide, by decide, by decide, by decide, by decide, by decide⟩
  running := fun _ => by decide
  idle := fun h => by cases h
  inReset := fun h => by cases h
  doneIdle := fun h => by cases h
  builtDone := fun h => by cases h
  errDone := fun h => absurd rfl h
  size := .inl rfl
  waiting := fun _ => by decide
  budget := fun h => by cases h
  uarea := fun _ => by decide

/-- StepKeepsTheInvariant, NoFaultUnderTheInvariant: a state of a running command that steps on. -/
theorem test_witness_invariant :
    (waiting (.deviceAck 0x1000 false)).Inv
      ∧ ∃ t, step (waiting (.deviceAck 0x1000 false)) = .next t ∧ t.rdwIdx = 0x41 :=
  ⟨test_waiting_inv, _, rfl, by decide +kernel⟩

/-- ResetInput, while a command waits, and while none runs. -/
theorem test_witness_reset_busy :
    (waiting (.reset true)).canRun = false ∧ (waiting (.reset true)).inputs = ⟨0, .reset true⟩ :: []
      ∧ (waiting (.reset true)).status.busy = true := by decide

theorem test_witness_reset_idle :
    { State.reset with inputs := [⟨5, .reset true⟩] }.canRun = false
      ∧ { State.reset with inputs := [⟨5, .reset true⟩] }.status.busy = false := by decide

/-- ImageSizeRule, its first clause: 230X before step 1. -/
theorem test_witness_size_step :
    { loaded .ft230X true 0 0 [] with phase := .b1 }.phase = .b1
      ∧ { loaded .ft230X true 0 0 [] with phase := .b1 }.chipidMoved = false
      ∧ { loaded .ft230X true 0 0 [] with phase := .b1 }.params.tables = SourceTables.standard :=
  ⟨rfl, rfl, rfl⟩

/-- ZeroFillSparesTheFactoryWindow, its second clause: the first byte above a 128-byte image. -/
theorem test_witness_above_image :
    State.reset.params.check = true ∧ State.reset.sz.bytes ≤ (0x80 : ImgAddr).toNat :=
  ⟨test_params_tp_accepted, by decide⟩

/-- ZeroFillSparesTheFactoryWindow, its first clause. -/
theorem test_witness_zero_fill :
    { loaded .ft230X true 0 0 [] with phase := .b3 }.phase = .b3
      ∧ Variant.ofCode? { loaded .ft230X true 0 0 [] with phase := .b3 }.cfg.variantCode = some .ft230X
      ∧ { loaded .ft230X true 0 0 [] with phase := .b3 }.params.tables = SourceTables.standard :=
  ⟨rfl, by decide, rfl⟩

/-- StepSevenOrderIndependent, CommandsAfterReset. -/
theorem test_witness_params :
    State.reset.params.check = true ∧ Params.test.tables = SourceTables.standard :=
  ⟨test_params_tp_accepted, rfl⟩

/-- ChipidSampledOnce, BusyWritesOnlySetHostViol, BusyReads: at both ends of the IMG window and on both sides of it. -/
theorem test_witness_busy :
    (waiting (.hostWrite 0 1)).phase ≠ .bCheck ∧ (waiting (.hostWrite 0 1)).phase ≠ .b1
      ∧ (waiting (.hostWrite 0 1)).rst = false ∧ (waiting (.hostWrite 0 1)).status.busy = true
      ∧ 4 * (0x100 : BusAddr).toNat = 0x400 ∧ 4 * (0x13F : BusAddr).toNat = 0x4FC
      ∧ 4 * (0x0FF : BusAddr).toNat < 0x400 ∧ 0x500 ≤ 4 * (0x140 : BusAddr).toNat := by decide

/-- Capacities below the defaults. -/
def smaller : Capacities := { Capacities.standard with maxGroups := 5, maxChan := 2, maxCbus := 7 }

/-- ConfigRegistersReadBack: the first and the last register of the map, and each last register of a bank, at the default
capacities and at smaller ones. -/
theorem test_witness_config_registers :
    State.reset.rst = false ∧ State.reset.status.busy = false ∧ State.reset.params.caps.fit = true ∧ smaller.fit = true
      ∧ cfgWritable Capacities.standard (4 * (0x008 : BusAddr).toNat) = some 0xFFFFFFFF
      ∧ cfgWritable Capacities.standard (4 * (0x017 : BusAddr).toNat) = some 0x000003FF
      ∧ cfgWritable Capacities.standard (4 * (0x01B : BusAddr).toNat) = some 0x0000070F
      ∧ cfgWritable Capacities.standard (4 * (0x01E : BusAddr).toNat) = some 0x0000FFFF
      ∧ cfgWritable smaller (4 * (0x014 : BusAddr).toNat) = some 0x000003FF
      ∧ cfgWritable smaller (4 * (0x019 : BusAddr).toNat) = some 0x0000070F
      ∧ cfgWritable smaller (4 * (0x01D : BusAddr).toNat) = some 0x00FFFFFF := by decide

/-- WindowsStoreLittleEndian: the last word of each window. -/
theorem test_witness_windows :
    4 * (0x05F : BusAddr).toNat = windowBase .strM + 4 * 31 ∧ 31 < windowWords .strM
      ∧ 4 * (0x07F : BusAddr).toNat = windowBase .strP + 4 * 31 ∧ 4 * (0x09F : BusAddr).toNat = windowBase .strS + 4 * 31
      ∧ 4 * (0x0FF : BusAddr).toNat = windowBase .udb + 4 * 63 ∧ 63 < windowWords .udb
      ∧ 4 * (0x13F : BusAddr).toNat = windowBase .img + 4 * 63 ∧ 63 < windowWords .img := by decide

/-- RegisterReads: the last group, channel and CBUS register, at the default capacities and at smaller ones. -/
theorem test_witness_register_reads :
    State.reset.rst = false ∧ State.reset.params.caps.fit = true ∧ smaller.fit = true
      ∧ 4 * (0x017 : BusAddr).toNat = 0x040 + 4 * 7 ∧ 7 < State.reset.params.caps.maxGroups
      ∧ 4 * (0x014 : BusAddr).toNat = 0x040 + 4 * 4 ∧ 4 < smaller.maxGroups
      ∧ 4 * (0x01B : BusAddr).toNat = 0x060 + 4 * 3 ∧ 3 < State.reset.params.caps.maxChan
      ∧ 4 * (0x01E : BusAddr).toNat = 0x070 + 4 * 2 ∧ 4 * 2 < State.reset.params.caps.maxCbus
      ∧ 4 * (0x01D : BusAddr).toNat = 0x070 + 4 * 1 ∧ 4 * 1 < smaller.maxCbus := by decide

/-- SizeIsAnArgument: a state before step 1 where a case of the default table holds, and one where none does; and a table by
variant, which the check accepts and which gives 256 bytes to 230X alone. -/
theorem test_witness_size_case :
    { loaded .ft230X true 0 0 [] with phase := .b1 }.params.tables.size.cases =
        [⟨[.overridden false], 128⟩] ++ ⟨[.overridden true], 256⟩ :: [⟨[.bigChipid], 256⟩]
      ∧ sizeTestHolds SourceTables.standard (loaded .ft230X true 0 0 []).cfg 0 (.overridden false) = false
      ∧ sizeTestHolds SourceTables.standard (loaded .ft230X true 0 0 []).cfg 0 (.overridden true) = true := by decide

theorem test_witness_size_otherwise :
    { State.reset with phase := .b1 }.act.sz = .b128
      ∧ (SourceTables.standard.size.cases.all fun k =>
          k.tests.any fun test => !sizeTestHolds SourceTables.standard .reset 0x46 test) = true := by decide

theorem test_size_by_variant :
    (⟨[⟨[.variant .ft230X], 256⟩], 128⟩ : SizeTable).fit = true
      ∧ imageSizeFor { SourceTables.standard with size := ⟨[⟨[.variant .ft230X], 256⟩], 128⟩ }
          { ConfigRegs.reset with chip := 7 } 0x46 = .b256
      ∧ imageSizeFor { SourceTables.standard with size := ⟨[⟨[.variant .ft230X], 256⟩], 128⟩ }
          { ConfigRegs.reset with chip := 4 } 0x56 = .b128 := by decide

/-- UnmappedAndReadOnlyWords: STATUS, and the words beside the map's gaps. -/
theorem test_witness_write_ignored :
    writeIgnored Capacities.standard (4 * (0x001 : BusAddr).toNat) ∧ writeIgnored Capacities.standard (4 * (0x006 : BusAddr).toNat)
      ∧ writeIgnored Capacities.standard (4 * (0x01F : BusAddr).toNat) ∧ writeIgnored Capacities.standard (4 * (0x0A0 : BusAddr).toNat)
      ∧ writeIgnored Capacities.standard (4 * (0x1FF : BusAddr).toNat)
      ∧ writeIgnored smaller (4 * (0x015 : BusAddr).toNat) ∧ writeIgnored smaller (4 * (0x01A : BusAddr).toNat)
      ∧ writeIgnored smaller (4 * (0x01E : BusAddr).toNat) := by
  simp [writeIgnored, smaller, Capacities.standard]

/-- ResetValues: a configuration register of the map. -/
theorem test_witness_reset_values : cfgWritable Capacities.standard (4 * (0x00B : BusAddr).toNat) = some 0x8000030F := by decide

/-- OnlyIllFormedParametersAreRefused: nine groups on AM. -/
theorem test_witness_refused :
    let s : State := { script .reset [.cmd .build] with params := paramsWith [⟨.chipId, 0x0B, 0xFF, 0⟩] 9 4 [] }
    s.rst = false ∧ s.status.busy = false ∧ s.params.check = false ∧ step s = .refused .illFormedParameters :=
  ⟨rfl, rfl, test_params_groups_refused, rfl⟩

/-- IdleChangesNothing. -/
theorem test_witness_idle : State.reset.status.busy = false ∧ State.reset.inputs = [] := ⟨rfl, rfl⟩

/-- CommandsWriteNoConfiguration, CommandsWriteOnlyTheirOwnResults, BuiltOnlyByBuild: commands that answer a next state, and a
BUILD before step 10 that goes on. -/
theorem test_witness_commands :
    (∃ t, exec (.encode 6 3) State.reset = .next t) ∧ (∃ t, exec (.checksum 4 false) State.reset = .next t)
      ∧ ∃ t, exec .build b1 = .next t ∧ t.status.built = true :=
  ⟨⟨_, rfl⟩, ⟨_, rfl⟩, _, rfl, by decide +kernel⟩

theorem test_witness_going_on :
    { loaded .am false 0 0 [] with cmdv := ⟨1, 0, 0, false⟩, status := .accepted, phase := .b10 }.canRun = true
      ∧ ∃ t, step { loaded .am false 0 0 [] with cmdv := ⟨1, 0, 0, false⟩, status := .accepted, phase := .b10 } = .next t
        ∧ t.status.built = true :=
  ⟨rfl, _, rfl, by decide +kernel⟩

end Sys2Proof.Tests
end

section
/-! SUPPORT. The parameter SIZE (00_scope.md R12; log 24): which case of a table decides, and a table for any function. -/

namespace Sys2Proof.Machine

/-- The first case whose tests all hold decides. -/
theorem imageSizeFor_of_first {t : SourceTables} {c : ConfigRegs} {chipid : Byte} {pre post : List SizeCase} {k : SizeCase}
    (hcases : t.size.cases = pre ++ k :: post)
    (hpre : ∀ x ∈ pre, ∃ test ∈ x.tests, sizeTestHolds t c chipid test = false)
    (hk : ∀ test ∈ k.tests, sizeTestHolds t c chipid test = true) :
    imageSizeFor t c chipid = .ofBytes k.size := by
  have hnone : pre.find? (fun x => x.tests.all (sizeTestHolds t c chipid)) = none := by
    simpa [List.find?_eq_none] using hpre
  have hhold : k.tests.all (sizeTestHolds t c chipid) = true := List.all_eq_true.2 hk
  simp [imageSizeFor, hcases, List.find?_append, hnone, hhold]

/-- Where no case holds, the table's last size decides. -/
theorem imageSizeFor_of_none {t : SourceTables} {c : ConfigRegs} {chipid : Byte}
    (hcases : ∀ x ∈ t.size.cases, ∃ test ∈ x.tests, sizeTestHolds t c chipid test = false) :
    imageSizeFor t c chipid = .ofBytes t.size.otherwise := by
  have hnone : t.size.cases.find? (fun x => x.tests.all (sizeTestHolds t c chipid)) = none := by
    simpa [List.find?_eq_none] using hcases
  simp [imageSizeFor, hnone]

theorem State.sampleChipid_params (s : State) : s.sampleChipid.params = s.params := by
  unfold State.sampleChipid
  split <;> rfl

theorem State.sampleChipid_cfg (s : State) : s.sampleChipid.cfg = s.cfg := by
  unfold State.sampleChipid
  split <;> rfl

/-- Step 1 takes the size of the parameter SIZE at the identifier it has just sampled (40_build.md R171, R172). -/
theorem State.act_sz_of_b1 (s : State) (h : s.phase = .b1) :
    s.act.sz = imageSizeFor s.params.tables s.cfg s.act.chipid := by
  simp [State.act, h, Machine.buildSize, State.sampleChipid_params, State.sampleChipid_cfg]

/-! ### A table for any function of the variant, the identifier and the override -/

theorem ImgSize.ofBytes_bytes (z : ImgSize) : ImgSize.ofBytes z.bytes = z := by cases z <;> rfl

theorem mem_allVariants (v : Variant) : v ∈ allVariants := by cases v <;> decide

/-- Every chip identifier. -/
def allChipids : List Byte := (List.range 256).map (BitVec.ofNat 8)

theorem mem_allChipids (b : Byte) : b ∈ allChipids :=
  List.mem_map.2 ⟨b.toNat, List.mem_range.2 b.isLt, by simp⟩

/-- The cases of one variant and identifier: a test for "not overridden" does not exist, so its case comes after the two
overridden ones. -/
def sizeCasesAt (size : Variant → Byte → Option Bool → ImgSize) (p : Variant × Byte) : List SizeCase :=
  [⟨[.variant p.1, .chipid p.2, .overridden false], (size p.1 p.2 (some false)).bytes⟩,
   ⟨[.variant p.1, .chipid p.2, .overridden true], (size p.1 p.2 (some true)).bytes⟩,
   ⟨[.variant p.1, .chipid p.2], (size p.1 p.2 none).bytes⟩]

/-- A table that gives `size`. -/
def sizeTableOf (size : Variant → Byte → Option Bool → ImgSize) : SizeTable where
  cases := (allVariants.product allChipids).flatMap (sizeCasesAt size)
  otherwise := 128

theorem sizeTableOf_fit (size : Variant → Byte → Option Bool → ImgSize) : (sizeTableOf size).fit = true := by
  have hbytes (z : ImgSize) : z.bytes = 128 ∨ z.bytes = 256 := by cases z <;> simp [ImgSize.bytes]
  simp only [SizeTable.fit, sizeTableOf, List.all_cons, List.all_map, List.all_flatMap, Bool.and_eq_true, List.all_eq_true]
  refine ⟨rfl, fun p _ x hx => ?_⟩
  simp only [sizeCasesAt, List.mem_cons, List.not_mem_nil, or_false] at hx
  rcases hx with rfl | rfl | rfl <;> simp [hbytes]

/-- The cases of another variant or identifier do not hold. -/
theorem find?_sizeCasesAt_ne {size : Variant → Byte → Option Bool → ImgSize} {t : SourceTables} {c : ConfigRegs}
    {chipid : Byte} {v : Variant} (hv : Variant.ofCode? c.variantCode = some v) {p : Variant × Byte} (hp : p ≠ (v, chipid)) :
    (sizeCasesAt size p).find? (fun k => k.tests.all (sizeTestHolds t c chipid)) = none := by
  have hfail : ¬(v = p.1 ∧ chipid = p.2) := fun ⟨h1, h2⟩ => hp (Prod.ext h1.symm h2.symm)
  simp only [List.find?_eq_none, sizeCasesAt, List.mem_cons, List.not_mem_nil, or_false]
  rintro x (rfl | rfl | rfl) <;> simp [sizeTestHolds, hv] <;> tauto

/-- Of the cases of this variant and identifier, the first that holds has the size asked for. -/
theorem find?_sizeCasesAt_self (size : Variant → Byte → Option Bool → ImgSize) {t : SourceTables} {c : ConfigRegs}
    {chipid : Byte} {v : Variant} (hv : Variant.ofCode? c.variantCode = some v) :
    ∃ k, (sizeCasesAt size (v, chipid)).find? (fun k => k.tests.all (sizeTestHolds t c chipid)) = some k
      ∧ k.size = (size v chipid c.sizeOverride).bytes := by
  rcases ho : c.sizeOverride with _ | _ | _ <;> simp [sizeCasesAt, sizeTestHolds, hv, ho, List.find?]

/-- A search that succeeds at one entry of a list alone gives what it finds there. -/
theorem findSome?_of_unique {α β : Type} {f : α → Option β} {l : List α} {a : α} {b : β} (ha : a ∈ l) (hb : f a = some b)
    (hne : ∀ x ≠ a, f x = none) : l.findSome? f = some b := by
  have hsome : (l.findSome? f).isSome := List.findSome?_isSome_iff.2 ⟨a, ha, by rw [hb]; rfl⟩
  obtain ⟨y, hy⟩ := Option.isSome_iff_exists.1 hsome
  obtain ⟨x, -, hx⟩ := List.exists_of_findSome?_eq_some hy
  have hxa : x = a := by
    by_contra h
    simp [hne x h] at hx
  rw [hy, ← hx, hxa, hb]

theorem imageSizeFor_sizeTableOf {size : Variant → Byte → Option Bool → ImgSize} {t : SourceTables} {c : ConfigRegs}
    {v : Variant} (chipid : Byte) (ht : t.size = sizeTableOf size) (hv : Variant.ofCode? c.variantCode = some v) :
    imageSizeFor t c chipid = size v chipid c.sizeOverride := by
  obtain ⟨k, hk, hsize⟩ := find?_sizeCasesAt_self size (t := t) (chipid := chipid) hv
  have hfind : t.size.cases.find? (fun k => k.tests.all (sizeTestHolds t c chipid)) = some k := by
    rw [ht, sizeTableOf, List.find?_flatMap]
    exact findSome?_of_unique (List.pair_mem_product.2 ⟨mem_allVariants v, mem_allChipids chipid⟩) hk
      fun p hp => find?_sizeCasesAt_ne hv hp
  simp [imageSizeFor, hfind, hsize, ImgSize.ofBytes_bytes]

/-- Settles O30: `find?` gives the first case that holds; any function is the table that lists its value at every variant,
identifier and override. -/
theorem sizeIsAnArgument : Obligations.SizeIsAnArgument := by
  refine ⟨fun s hs => ⟨fun pre post k hcases hpre hk => ?_, fun hnone => ?_⟩, fun size =>
    ⟨sizeTableOf size, sizeTableOf_fit size, fun t c chipid v ht hv => imageSizeFor_sizeTableOf chipid ht hv⟩⟩
  · rw [s.act_sz_of_b1 hs, imageSizeFor_of_first hcases hpre hk]
  · rw [s.act_sz_of_b1 hs, imageSizeFor_of_none hnone]

end Sys2Proof.Machine
end

section
/-! SUPPORT. The register map (10_state.md R31): the byte address of each of its words, and what a host access at that
address does. -/

namespace Sys2Proof.Machine

/-! ### Words of the map and their byte addresses -/

/-- The byte address of a word of the map. -/
def BusTarget.byteAddr? : BusTarget → Option Nat
  | .cmd => some 0x000
  | .status => some 0x004
  | .uarea => some 0x008
  | .cksum => some 0x00C
  | .encres => some 0x010
  | .imgSize => some 0x014
  | .cfgId => some 0x020
  | .cfgDesc => some 0x024
  | .cfgPower => some 0x028
  | .cfgChip => some 0x02C
  | .cfgStrLen => some 0x030
  | .cfgUd => some 0x034
  | .group g => some (0x040 + 4 * g.val)
  | .chan c => some (0x060 + 4 * c.val)
  | .cbus i => some (0x070 + 4 * i.val)
  | .window r k => some (windowBase r + 4 * k)
  | .unmapped => none

theorem ramSize_eq (r : RamId) : ramSize r = 4 * windowWords r := by cases r <;> rfl

theorem window_inside_iff (r : RamId) (k : Nat) : (BusTarget.window r k).inside = true ↔ k < windowWords r := by
  simp only [BusTarget.inside, ramSize_eq, decide_eq_true_eq]
  omega

/-- A word of the map stands at its byte address. -/
theorem byteAddr?_busTarget :
    ∀ a : BusAddr, busTarget a = .unmapped ∨ (busTarget a).byteAddr? = some (4 * a.toNat) := by decide +kernel

theorem busTarget_of_window :
    ∀ (r : RamId) (k : Nat), k < windowWords r → busTarget (BitVec.ofNat 9 ((windowBase r + 4 * k) / 4)) = .window r k
  | .strM => by decide +kernel
  | .strP => by decide +kernel
  | .strS => by decide +kernel
  | .udb => by decide +kernel
  | .img => by decide +kernel

/-- The word at the byte address of a word of the map is that word. -/
theorem busTarget_of_byteAddr? {a : BusAddr} {t : BusTarget} (hin : t.inside = true)
    (ha : t.byteAddr? = some (4 * a.toNat)) : busTarget a = t := by
  have hat {n : Nat} (hn : n = 4 * a.toNat) : a = BitVec.ofNat 9 (n / 4) := by simp [hn]
  cases t with
  | unmapped => simp [BusTarget.byteAddr?] at ha
  | window r k =>
    rw [hat (Option.some.inj ha)]
    exact busTarget_of_window r k ((window_inside_iff r k).1 hin)
  | group g => rw [hat (Option.some.inj ha)]; clear hin ha hat; revert g; decide
  | chan c => rw [hat (Option.some.inj ha)]; clear hin ha hat; revert c; decide
  | cbus i => rw [hat (Option.some.inj ha)]; clear hin ha hat; revert i; decide
  | _ => rw [hat (Option.some.inj ha)]; decide

/-- The same, for the words that stand at the machine's capacities. -/
theorem State.busTarget_of_byteAddr? {s : State} {a : BusAddr} {t : BusTarget} (hin : t.inside = true)
    (hst : t.standsAt s.params.caps = true) (ha : t.byteAddr? = some (4 * a.toNat)) : s.busTarget a = t := by
  simp [State.busTarget, Machine.busTarget_of_byteAddr? hin ha, hst]

/-- A bus word is unmapped, or stands in the map at its byte address. -/
theorem State.busTarget_stands (s : State) (a : BusAddr) :
    s.busTarget a = .unmapped
      ∨ ((s.busTarget a).byteAddr? = some (4 * a.toNat) ∧ (s.busTarget a).standsAt s.params.caps = true
        ∧ (s.busTarget a).inside = true) := by
  unfold State.busTarget
  split
  · next hst =>
    rcases byteAddr?_busTarget a with h | h
    · exact .inl h
    · exact .inr ⟨h, hst, busTarget_inside a⟩
  · exact .inl rfl

/-- No two addresses have the same word of the map. -/
theorem State.busTarget_injective {s : State} {a b : BusAddr} (hu : s.busTarget a ≠ .unmapped)
    (h : s.busTarget b = s.busTarget a) : b = a := by
  have ha := ((s.busTarget_stands a).resolve_left hu).1
  have hb := ((s.busTarget_stands b).resolve_left (h ▸ hu)).1
  rw [h, ha, Option.some.injEq] at hb
  exact BitVec.eq_of_toNat_eq (by omega)

/-- What the register map asks of the capacities. -/
theorem Capacities.bounds_of_fit {c : Capacities} (h : c.fit = true) :
    c.imgCap = 256 ∧ c.udCap = 256 ∧ c.maxGroups ≤ 8 ∧ c.maxChan ≤ 4 ∧ c.maxCbus ≤ 10 := by
  simp only [Capacities.fit, Bool.and_eq_true, beq_iff_eq, decide_eq_true_eq] at h
  obtain ⟨⟨⟨⟨⟨himg, hud⟩, -⟩, hgroups⟩, hchan⟩, hcbus⟩ := h
  exact ⟨himg, hud, hgroups, hchan, hcbus⟩

/-- Every window word stands at capacities that fit the map. -/
theorem window_standsAt {c : Capacities} (h : c.fit = true) {r : RamId} {k : Nat} (hk : k < windowWords r) :
    (BusTarget.window r k).standsAt c = true := by
  obtain ⟨himg, hud, -⟩ := Capacities.bounds_of_fit h
  cases r <;> simp [BusTarget.standsAt, himg, hud] <;> simp [windowWords] at hk <;> omega

/-! ### Host reads -/

/-- With RST released a read returns the word's current value, but for an IMG word while a command runs (20_memory.md R114). -/
theorem hostRdata_hostRead {s : State} {a : BusAddr} (hr : s.rst = false)
    (hb : (s.busTarget a).isImg = true → s.status.busy = false) :
    (hostRead a s).hostRdata = s.busValue (s.busTarget a) := by
  rcases himg : (s.busTarget a).isImg with _ | _
  · simp [hostRead, hr, himg]
  · simp [hostRead, hr, hb himg]

/-- A read at the byte address of a word of the map returns that word's current value. -/
theorem hostRdata_of_byteAddr? {s : State} {a : BusAddr} {A : Nat} (t : BusTarget) (hr : s.rst = false)
    (hA : t.byteAddr? = some A) (hin : t.inside = true) (hst : t.standsAt s.params.caps = true)
    (hb : t.isImg = true → s.status.busy = false) (ha : 4 * a.toNat = A) : (hostRead a s).hostRdata = s.busValue t := by
  have ht := State.busTarget_of_byteAddr? hin hst (hA.trans (congrArg some ha.symm))
  rw [hostRdata_hostRead hr (by rwa [ht]), ht]

/-- An unmapped word reads 0, also while RST is asserted. -/
theorem hostRdata_of_unmapped {s : State} {a : BusAddr} (h : s.busTarget a = .unmapped) : (hostRead a s).hostRdata = 0 := by
  rcases hr : s.rst with _ | _
  · rw [hostRdata_hostRead hr (by simp [h, BusTarget.isImg]), h, State.busValue]
  · simp [hostRead, hr]

/-- Byte `j` of a window word, the lowest first (20_memory.md R103). -/
theorem State.extractLsb'_windowWord (s : State) (r : RamId) (k : Nat) {j : Nat} (hj : j < 4) :
    (s.windowWord r k).extractLsb' (8 * j) 8 = s.ramByte r (4 * k + j) := by
  unfold State.windowWord
  interval_cases j <;> ext i hi <;> simp <;> grind

/-- Settles O43: each word stands at its byte address, and a read there returns its current value. -/
theorem registerReads : Obligations.RegisterReads := by
  intro s a hr hfit
  have readReg (t : BusTarget) (A : Nat) (hA : t.byteAddr? = some A) (hin : t.inside = true)
      (hst : t.standsAt s.params.caps = true) (himg : t.isImg = false) (ha : 4 * a.toNat = A) :
      (hostRead a s).hostRdata = s.busValue t :=
    hostRdata_of_byteAddr? t hr hA hin hst (by simp [himg]) ha
  refine ⟨readReg .cmd _ rfl rfl rfl rfl, readReg .status _ rfl rfl rfl rfl, fun ha => ?_, fun ha => ?_, fun ha => ?_,
    fun ha => ?_, readReg .cfgId _ rfl rfl rfl rfl, readReg .cfgDesc _ rfl rfl rfl rfl, readReg .cfgPower _ rfl rfl rfl rfl,
    readReg .cfgChip _ rfl rfl rfl rfl, readReg .cfgStrLen _ rfl rfl rfl rfl, readReg .cfgUd _ rfl rfl rfl rfl,
    fun g hg => readReg (.group g) _ rfl rfl (decide_eq_true hg) rfl,
    fun i hi => readReg (.chan i) _ rfl rfl (decide_eq_true hi) rfl,
    fun i hi => readReg (.cbus i) _ rfl rfl (decide_eq_true hi) rfl, fun r k ha hk hb j hj => ?_⟩
  · rw [readReg .uarea _ rfl rfl rfl rfl ha]
    exact BitVec.toNat_setWidth_of_le (by decide)
  · rw [readReg .cksum _ rfl rfl rfl rfl ha]
    exact BitVec.toNat_setWidth_of_le (by decide)
  · rw [readReg .encres _ rfl rfl rfl rfl ha]
    exact BitVec.toNat_setWidth_of_le (by decide)
  · rw [readReg .imgSize _ rfl rfl rfl rfl ha]
    exact BitVec.toNat_setWidth_of_le (by decide)
  · have himg : (BusTarget.window r k).isImg = true → s.status.busy = false := by
      cases r <;> simp_all [BusTarget.isImg]
    rw [hostRdata_of_byteAddr? (.window r k) hr rfl ((window_inside_iff r k).2 hk) (window_standsAt hfit hk) himg ha]
    exact s.extractLsb'_windowWord r k hj

/-! ### Host writes that change nothing -/

/-- The words that ignore writes: the read-only registers, and what is not in the map (10_state.md R31, R32). -/
def BusTarget.ignoresWrites : BusTarget → Bool
  | .status | .uarea | .cksum | .encres | .imgSize | .unmapped => true
  | _ => false

theorem ConfigRegs.write_of_ignoresWrites {t : BusTarget} (c : ConfigRegs) (caps : Capacities) (w : Word)
    (h : t.ignoresWrites = true) : c.write caps w t = c := by
  cases t with
  | status | uarea | cksum | encres | imgSize | unmapped => rfl
  | _ => simp [BusTarget.ignoresWrites] at h

theorem hostWrite_of_ignoresWrites {s : State} {a : BusAddr} (w : Word) (hb : s.status.busy = false)
    (h : (s.busTarget a).ignoresWrites = true) : hostWrite a w s = s := by
  rcases hostWrite_cases a w s with ⟨-, heq⟩ | ⟨-, hbusy, -⟩ | ⟨-, -, ⟨r, k, ht, -⟩ | heq⟩
  · exact heq
  · simp [hb] at hbusy
  · simp [ht, BusTarget.ignoresWrites] at h
  · rw [heq, ConfigRegs.write_of_ignoresWrites _ _ _ h]

/-- At the byte addresses of `writeIgnored` stand only words that ignore writes. -/
theorem ignoresWrites_of_writeIgnored {s : State} {a : BusAddr} (h : writeIgnored s.params.caps (4 * a.toNat)) :
    (s.busTarget a).ignoresWrites = true := by
  rcases s.busTarget_stands a with hu | ⟨haddr, hst, hin⟩
  · rw [hu]; rfl
  · unfold writeIgnored at h
    generalize s.busTarget a = t at *
    cases t with
    | window r k =>
      have hk := (window_inside_iff r k).1 hin
      have hA := Option.some.inj haddr
      cases r <;> simp only [windowBase, windowWords] at hk hA <;> omega
    | group g =>
      have hg := of_decide_eq_true hst
      have hA := Option.some.inj haddr
      omega
    | chan c =>
      have hc := of_decide_eq_true hst
      have hA := Option.some.inj haddr
      omega
    | cbus i =>
      have hi := of_decide_eq_true hst
      have hA := Option.some.inj haddr
      omega
    | status | uarea | cksum | encres | imgSize | unmapped => rfl
    | _ =>
      have hA := Option.some.inj haddr
      omega

/-- Above the read-only registers these addresses have no word of the map. -/
theorem busTarget_unmapped_of_writeIgnored {s : State} {a : BusAddr} (h : writeIgnored s.params.caps (4 * a.toNat))
    (ha : 0x018 ≤ 4 * a.toNat) : s.busTarget a = .unmapped := by
  have hign := ignoresWrites_of_writeIgnored h
  rcases s.busTarget_stands a with hu | ⟨haddr, -⟩
  · exact hu
  · generalize s.busTarget a = t at *
    cases t with
    | status | uarea | cksum | encres | imgSize =>
      have hA := Option.some.inj haddr
      omega
    | unmapped => rfl
    | _ => simp [BusTarget.ignoresWrites] at hign

/-- A host write that is not to CMD's address 0x000 is no command. -/
theorem arrive_hostWrite_of_ne {s : State} {a : BusAddr} (w : Word) (ha : 4 * a.toNat ≠ 0x000) :
    arrive (.hostWrite a w) s = .next (hostWrite a w s) := by
  refine if_neg fun hcmd => ha ?_
  rcases byteAddr?_busTarget a with hu | haddr
  · simp [hcmd] at hu
  · simpa [hcmd, BusTarget.byteAddr?] using haddr.symm

/-- Settles O41: only words that ignore writes stand at those addresses, and above 0x014 none of the map at all. -/
theorem unmappedAndReadOnlyWords : Obligations.UnmappedAndReadOnlyWords := by
  refine ⟨fun s a w _ hb _ hign => ?_, fun s a _ hign ha => ?_, fun s a => ?_⟩
  · have hne : 4 * a.toNat ≠ 0x000 := by
      unfold writeIgnored at hign
      omega
    rw [arrive_hostWrite_of_ne w hne, hostWrite_of_ignoresWrites w hb (ignoresWrites_of_writeIgnored hign)]
  · exact hostRdata_of_unmapped (busTarget_unmapped_of_writeIgnored hign ha)
  · obtain ⟨v, n, h⟩ := hostRead_frame a s
    rw [h]

/-! ### Configuration registers -/

/-- The bits that some field of a configuration register names (10_state.md R45..R53); `none` for every other word. -/
def BusTarget.fieldMask? (c : Capacities) : BusTarget → Option Word
  | .cfgId => some 0xFFFFFFFF
  | .cfgDesc => some descMask
  | .cfgPower => some powerMask
  | .cfgChip => some chipMask
  | .cfgStrLen => some strLenMask
  | .cfgUd => some 0xFFFFFFFF
  | .group _ => some groupRegMask
  | .chan _ => some chanMask
  | .cbus i => some (cbusRegMask c.maxCbus i.val)
  | _ => none

section
variable (c : ConfigRegs) (caps : Capacities) (w : Word) (t : BusTarget)

@[simp] theorem ConfigRegs.write_id : (c.write caps w t).id = if t = .cfgId then w else c.id := by cases t <;> rfl
@[simp] theorem ConfigRegs.write_desc :
    (c.write caps w t).desc = if t = .cfgDesc then w &&& descMask else c.desc := by cases t <;> rfl
@[simp] theorem ConfigRegs.write_power :
    (c.write caps w t).power = if t = .cfgPower then w &&& powerMask else c.power := by cases t <;> rfl
@[simp] theorem ConfigRegs.write_chip :
    (c.write caps w t).chip = if t = .cfgChip then w &&& chipMask else c.chip := by cases t <;> rfl
@[simp] theorem ConfigRegs.write_strLen :
    (c.write caps w t).strLen = if t = .cfgStrLen then w &&& strLenMask else c.strLen := by cases t <;> rfl
@[simp] theorem ConfigRegs.write_ud : (c.write caps w t).ud = if t = .cfgUd then w else c.ud := by cases t <;> rfl

theorem ConfigRegs.write_groups (g : Fin 8) :
    (c.write caps w t).groups[g] = if t = .group g then w &&& groupRegMask else c.groups[g] := by
  cases t with
  | group k => simp [ConfigRegs.write, Vector.getElem_set, Fin.ext_iff]
  | _ => rfl

theorem ConfigRegs.write_chans (i : Fin 4) :
    (c.write caps w t).chans[i] = if t = .chan i then w &&& chanMask else c.chans[i] := by
  cases t with
  | chan k => simp [ConfigRegs.write, Vector.getElem_set, Fin.ext_iff]
  | _ => rfl

theorem ConfigRegs.write_cbus (i : Fin 3) :
    (c.write caps w t).cbus[i] = if t = .cbus i then w &&& cbusRegMask caps.maxCbus i.val else c.cbus[i] := by
  cases t with
  | cbus k =>
    by_cases h : k = i
    · simp [ConfigRegs.write, h]
    · simp [ConfigRegs.write, h, Fin.val_ne_iff.2 h]
  | _ => rfl

end

/-- The word a configuration register holds after a write to it. -/
theorem busValue_write_self {s : State} {t : BusTarget} {w m : Word} (hm : t.fieldMask? s.params.caps = some m) :
    { s with cfg := s.cfg.write s.params.caps w t }.busValue t = w &&& m := by
  cases t with
  | cfgId | cfgUd =>
    obtain rfl := Option.some.inj hm
    exact (BitVec.and_allOnes (x := w)).symm
  | cfgDesc | cfgPower | cfgChip | cfgStrLen =>
    obtain rfl := Option.some.inj hm
    rfl
  | group g =>
    obtain rfl := Option.some.inj hm
    exact (ConfigRegs.write_groups ..).trans (if_pos rfl)
  | chan i =>
    obtain rfl := Option.some.inj hm
    exact (ConfigRegs.write_chans ..).trans (if_pos rfl)
  | cbus i =>
    obtain rfl := Option.some.inj hm
    exact (ConfigRegs.write_cbus ..).trans (if_pos rfl)
  | _ => simp [BusTarget.fieldMask?] at hm

/-- A write to a configuration register leaves every other word of the bus. -/
theorem busValue_write_of_ne (s : State) {t u : BusTarget} (w : Word) (hne : u ≠ t) :
    { s with cfg := s.cfg.write s.params.caps w t }.busValue u = s.busValue u := by
  cases u with
  | cfgId | cfgDesc | cfgPower | cfgChip | cfgStrLen | cfgUd => simp [State.busValue, hne.symm]
  | group g => exact (ConfigRegs.write_groups ..).trans (if_neg hne.symm)
  | chan i => exact (ConfigRegs.write_chans ..).trans (if_neg hne.symm)
  | cbus i => exact (ConfigRegs.write_cbus ..).trans (if_neg hne.symm)
  | _ => rfl

/-- At an address of `cfgWritable` stands a configuration register with those bits. -/
theorem fieldMask?_of_cfgWritable {s : State} {a : BusAddr} {m : Word} (hfit : s.params.caps.fit = true)
    (h : cfgWritable s.params.caps (4 * a.toNat) = some m) : (s.busTarget a).fieldMask? s.params.caps = some m := by
  obtain ⟨-, -, hgroups, hchan, hcbus⟩ := Capacities.bounds_of_fit hfit
  have reg (t : BusTarget) (hin : t.inside = true) (hst : t.standsAt s.params.caps = true)
      (ha : t.byteAddr? = some (4 * a.toNat)) (hm : t.fieldMask? s.params.caps = some m) :
      (s.busTarget a).fieldMask? s.params.caps = some m := by
    rwa [State.busTarget_of_byteAddr? hin hst ha]
  unfold cfgWritable at h
  split_ifs at h with hId hDesc hPower hChip hStrLen hUd hGroup hChan hCbus
  · exact reg .cfgId rfl rfl (congrArg some hId.symm) h
  · exact reg .cfgDesc rfl rfl (congrArg some hDesc.symm) h
  · exact reg .cfgPower rfl rfl (congrArg some hPower.symm) h
  · exact reg .cfgChip rfl rfl (congrArg some hChip.symm) h
  · exact reg .cfgStrLen rfl rfl (congrArg some hStrLen.symm) h
  · exact reg .cfgUd rfl rfl (congrArg some hUd.symm) h
  · exact reg (.group ⟨a.toNat - 0x10, by omega⟩) rfl
      (decide_eq_true (show a.toNat - 0x10 < s.params.caps.maxGroups by omega))
      (congrArg some (show 0x040 + 4 * (a.toNat - 0x10) = 4 * a.toNat by omega)) h
  · exact reg (.chan ⟨a.toNat - 0x18, by omega⟩) rfl
      (decide_eq_true (show a.toNat - 0x18 < s.params.caps.maxChan by omega))
      (congrArg some (show 0x060 + 4 * (a.toNat - 0x18) = 4 * a.toNat by omega)) h
  · have haddr : 4 * (a.toNat - 0x1C) = 4 * a.toNat - 0x070 := by omega
    refine reg (.cbus ⟨a.toNat - 0x1C, by omega⟩) rfl
      (decide_eq_true (show 4 * (a.toNat - 0x1C) < s.params.caps.maxCbus by omega))
      (congrArg some (show 0x070 + 4 * (a.toNat - 0x1C) = 4 * a.toNat by omega)) ?_
    rw [← h, ← haddr]
    rfl

/-- A host write to a configuration register of an idle machine changes that register alone. -/
theorem hostWrite_of_fieldMask? {s : State} {a : BusAddr} {m : Word} (w : Word) (hr : s.rst = false)
    (hb : s.status.busy = false) (hm : (s.busTarget a).fieldMask? s.params.caps = some m) :
    hostWrite a w s = { s with cfg := s.cfg.write s.params.caps w (s.busTarget a) } := by
  rcases hostWrite_cases a w s with ⟨hrst, -⟩ | ⟨-, hbusy, -⟩ | ⟨-, -, ⟨r, k, ht, -⟩ | heq⟩
  · simp [hr] at hrst
  · simp [hb] at hbusy
  · simp [ht, BusTarget.fieldMask?] at hm
  · exact heq

/-- Settles O39: the write sets the fields of the one register at that address, and a read returns a register's word. -/
theorem configRegistersReadBack : Obligations.ConfigRegistersReadBack := by
  intro s a w m hr hb hfit hcfg
  have hm := fieldMask?_of_cfgWritable hfit hcfg
  have hwrite := hostWrite_of_fieldMask? w hr hb hm
  have hmapped : s.busTarget a ≠ .unmapped := by
    intro hu
    simp [hu, BusTarget.fieldMask?] at hm
  have hread (b : BusAddr) : (hostRead b (hostWrite a w s)).hostRdata
      = { s with cfg := s.cfg.write s.params.caps w (s.busTarget a) }.busValue (s.busTarget b) := by
    rw [hwrite]
    exact hostRdata_hostRead hr fun _ => hb
  refine ⟨?_, fun b hne => ?_, ?_⟩
  · rw [hread, busValue_write_self hm]
  · rw [hread, busValue_write_of_ne s w fun h => hne (State.busTarget_injective hmapped h)]
    exact (hostRdata_hostRead hr fun _ => hb).symm
  · rw [hwrite]

end Sys2Proof.Machine
end

section
/-! SUPPORT. What no step of the sequencer writes, and what a command keeps from its acceptance on (10_state.md R57). -/

namespace Sys2Proof.Machine

/-- `t` has the registers, RAMs and inputs of `s` that only the host, the platform and acceptance write. -/
structure State.Untouched (s t : State) : Prop where
  cmd : t.cmd = s.cmd
  cmdv : t.cmdv = s.cmdv
  cfg : t.cfg = s.cfg
  strM : t.strM = s.strM
  strP : t.strP = s.strP
  strS : t.strS = s.strS
  udb : t.udb = s.udb
  rst : t.rst = s.rst
  devChipid : t.devChipid = s.devChipid
  chipidMoved : t.chipidMoved = s.chipidMoved
  imgGen : t.imgGen = s.imgGen
  hostRdata : t.hostRdata = s.hostRdata
  params : t.params = s.params

theorem State.Untouched.refl (s : State) : s.Untouched s := by constructor <;> rfl

theorem State.Untouched.trans {s t u : State} (h : s.Untouched t) (k : t.Untouched u) : s.Untouched u where
  cmd := k.cmd.trans h.cmd
  cmdv := k.cmdv.trans h.cmdv
  cfg := k.cfg.trans h.cfg
  strM := k.strM.trans h.strM
  strP := k.strP.trans h.strP
  strS := k.strS.trans h.strS
  udb := k.udb.trans h.udb
  rst := k.rst.trans h.rst
  devChipid := k.devChipid.trans h.devChipid
  chipidMoved := k.chipidMoved.trans h.chipidMoved
  imgGen := k.imgGen.trans h.imgGen
  hostRdata := k.hostRdata.trans h.hostRdata
  params := k.params.trans h.params

theorem State.endWith_untouched (s : State) (code : ErrorCode) : s.Untouched (s.endWith code) := by constructor <;> rfl

/-- B_CHECK ends the command, or finds a variant and goes on (40_build.md R170). -/
theorem buildCheck_cases (s : State) :
    (∃ code, code ≠ .none ∧ buildCheck s = s.endWith code)
      ∨ (s.cfg.cfgValid = true ∧ (∃ v, Variant.ofCode? s.cfg.variantCode = some v) ∧ buildCheck s = s.goto .b1) := by
  unfold buildCheck
  rcases hvalid : s.cfg.cfgValid with _ | _
  · exact .inl ⟨.noConfiguration, by decide, by simp⟩
  · rcases hv : Variant.ofCode? s.cfg.variantCode with _ | v
    · exact .inl ⟨.unknownChip, by decide, by simp⟩
    · exact .inr (by simp)

/-- Past its check a BUILD's variant is known; a state no run reaches would end as B_CHECK does. -/
theorem State.withVariant_cases (s : State) (k : Variant → State → State) :
    (Variant.ofCode? s.cfg.variantCode = none ∧ s.withVariant k = s.endWith .unknownChip)
      ∨ ∃ v, Variant.ofCode? s.cfg.variantCode = some v ∧ s.withVariant k = k v s := by
  unfold State.withVariant
  cases Variant.ofCode? s.cfg.variantCode <;> simp

/-- The phases of the steps 3..7, which all build the image and never end the command. -/
def Phase.buildsImage : Phase → Bool
  | .b3 | .b4 | .b5 | .b6 | .b7 => true
  | _ => false

/-- The phase that follows one of them. -/
def Phase.next : Phase → Phase
  | .b3 => .b4
  | .b4 => .b5
  | .b5 => .b6
  | .b6 => .b7
  | .b7 => .b8
  | p => p

/-- The steps 3..7 change IMG, CUR, PHASE and the two warnings of step 7 (40_build.md R175..R197). -/
theorem State.act_of_buildsImage {s : State} (hp : s.phase.buildsImage = true) :
    (Variant.ofCode? s.cfg.variantCode = none ∧ s.act = s.endWith .unknownChip)
      ∨ ∃ m c drive cbus, s.act =
          { s with
            img := m, phase := s.phase.next, cur := c, status := { s.status with wDrive := drive, wCbus := cbus } } := by
  have known {k : Variant → State → State} {p : Phase} (hact : s.act = s.withVariant k)
      (hk : ∀ v, ∃ m c drive cbus, k v s =
        { s with img := m, phase := p, cur := c, status := { s.status with wDrive := drive, wCbus := cbus } }) :
      (Variant.ofCode? s.cfg.variantCode = none ∧ s.act = s.endWith .unknownChip)
        ∨ ∃ m c drive cbus, s.act =
            { s with img := m, phase := p, cur := c, status := { s.status with wDrive := drive, wCbus := cbus } } := by
    rw [hact]
    rcases s.withVariant_cases k with hnone | ⟨v, -, heq⟩
    · exact .inl hnone
    · exact .inr (heq ▸ hk v)
  cases h : s.phase with
  | b3 => exact known (by simp only [State.act, h]) fun v => (buildZero_frame v s).imp fun _ heq => ⟨_, _, _, heq⟩
  | b4 => exact known (by simp only [State.act, h]) fun v => (buildFixed_frame v s).imp fun _ heq => ⟨_, _, _, heq⟩
  | b5 => exact known (by simp only [State.act, h]) fun v => (buildStrings_frame v s).imp fun _ heq => ⟨_, _, _, heq⟩
  | b6 => exact known (by simp only [State.act, h]) fun v => (buildPnp_frame v s).imp fun _ heq => ⟨_, _, _, heq⟩
  | b7 => exact known (by simp only [State.act, h]) fun v => (buildChip_frame v s).imp fun _ heq => ⟨_, _, _, heq⟩
  | _ => simp [h, Phase.buildsImage] at hp

/-- Step 1 changes CHIPID, SZ and the number of the next free value (40_build.md R171, R172). -/
theorem buildSize_frame (s : State) :
    ∃ id n, Machine.buildSize s =
      { s with chipid := id, draws := n, sz := imageSizeFor s.params.tables s.cfg id, phase := .b2 } := by
  unfold Machine.buildSize State.sampleChipid
  split
  · exact ⟨_, _, rfl⟩
  · exact ⟨_, s.draws, rfl⟩

/-- One turn of the checksum loop: the 230X jump, a live read's request, one fold, or the end (42_checksum.md R263..R267). -/
theorem State.checksumStep_cases (s : State) :
    (s.wi.toNat < s.wordBound ∧ s.checksumStep = { s with wi := BitVec.ofNat 8 s.params.tables.skipHi })
      ∨ (s.wi.toNat < s.wordBound ∧ s.on230X = true ∧ s.params.tables.liveLo ≤ s.wi.toNat
          ∧ s.wi.toNat < s.params.tables.liveHi ∧ s.checksumStep = s.requestWord)
      ∨ (s.wi.toNat < s.wordBound ∧ ∃ w, s.checksumStep = s.foldWord w)
      ∨ (s.wordBound ≤ s.wi.toNat ∧ s.checksumStep = s.finishChecksum) := by
  unfold State.checksumStep
  split_ifs with hbound hskip hlive
  · exact .inl ⟨hbound, rfl⟩
  · simp only [Bool.and_eq_true, decide_eq_true_eq] at hlive
    exact .inr (.inl ⟨hbound, hlive.1, hlive.2.1, hlive.2.2, rfl⟩)
  · exact .inr (.inr (.inl ⟨hbound, _, rfl⟩))
  · exact .inr (.inr (.inr ⟨Nat.le_of_not_lt hbound, rfl⟩))

/-- The end of the loop: BUILD goes on to step 10, CHECKSUM ends (40_build.md R203; 42_checksum.md R260). -/
theorem State.finishChecksum_cases (s : State) :
    (s.cmdv.op = opBuild ∧ s.finishChecksum =
        { s.putImgHalf (BitVec.ofNat 8 (s.sz.bytes - 2)) s.ck with cksum := s.ck, phase := .b10 })
      ∨ (s.cmdv.op ≠ opBuild ∧ s.finishChecksum = { s with cksum := s.ck }.endWith .none) := by
  by_cases h : s.cmdv.op = opBuild <;> simp [State.finishChecksum, h]

/-- K_WAIT takes the answer that comes next, or waits (10_state.md R64). -/
theorem State.waitStep_cases (s : State) :
    (∃ k data err rest, s.inputs = ⟨k, .deviceAck data err⟩ :: rest
        ∧ s.waitStep = { s with inputs := rest }.takeAnswer data err)
      ∨ (s.ackNext = false ∧ s.waitStep = s) := by
  unfold State.waitStep State.ackNext
  split
  · next k data err rest h => exact .inl ⟨k, data, err, rest, h, rfl⟩
  · next h =>
    exact .inr ⟨rfl, rfl⟩

/-- A step of BUILD that runs with the known variant touches what it touches, or ends the command. -/
theorem State.withVariant_untouched {s : State} {k : Variant → State → State} (h : ∀ v, s.Untouched (k v s)) :
    s.Untouched (s.withVariant k) := by
  rcases s.withVariant_cases k with ⟨-, heq⟩ | ⟨v, -, heq⟩
  · exact heq ▸ s.endWith_untouched _
  · exact heq ▸ h v

theorem buildCheck_untouched (s : State) : s.Untouched (buildCheck s) := by
  rcases buildCheck_cases s with ⟨code, -, heq⟩ | ⟨-, -, heq⟩
  · exact heq ▸ s.endWith_untouched code
  · rw [heq]; constructor <;> rfl

theorem buildSize_untouched (s : State) : s.Untouched (Machine.buildSize s) := by
  obtain ⟨id, n, heq⟩ := buildSize_frame s
  rw [heq]; constructor <;> rfl

theorem buildBudget_untouched (s : State) (v : Variant) : s.Untouched (buildBudget v s) := by
  rw [buildBudget_eq]
  split <;> constructor <;> rfl

theorem buildUser_untouched (s : State) (v : Variant) : s.Untouched (buildUser v s) := by
  obtain ⟨m, hcopy⟩ := (s.userWarnings v).copyUser_frame
  rcases buildUser_cases v s with ⟨-, heq⟩ | ⟨-, -, heq⟩ | ⟨-, -, heq⟩
  · rw [heq]; constructor <;> rfl
  · rw [heq, State.userWarnings_eq]; constructor <;> rfl
  · rw [heq, hcopy, State.userWarnings_eq]; constructor <;> rfl

theorem State.checksumStep_untouched (s : State) : s.Untouched s.checksumStep := by
  rcases s.checksumStep_cases with ⟨-, heq⟩ | ⟨-, -, -, -, heq⟩ | ⟨-, w, heq⟩ | ⟨-, heq⟩
  · rw [heq]; constructor <;> rfl
  · rw [heq]; constructor <;> rfl
  · rw [heq]; constructor <;> rfl
  · rcases s.finishChecksum_cases with ⟨-, hend⟩ | ⟨-, hend⟩ <;> rw [heq, hend] <;> constructor <;> rfl

theorem State.waitStep_untouched (s : State) : s.Untouched s.waitStep := by
  rcases s.waitStep_cases with ⟨k, data, err, rest, -, heq⟩ | ⟨-, heq⟩
  · rw [heq, State.takeAnswer_eq]; constructor <;> rfl
  · rw [heq]; exact State.Untouched.refl s

theorem State.act_untouched (s : State) : s.Untouched s.act := by
  cases hp : s.phase with
  | b3 | b4 | b5 | b6 | b7 =>
    rcases State.act_of_buildsImage (s := s) (by rw [hp]; rfl) with ⟨-, heq⟩ | ⟨m, c, drive, cbus, heq⟩ <;>
      rw [heq] <;> constructor <;> rfl
  | idle =>
    simp only [State.act, hp]
    exact State.Untouched.refl s
  | bCheck =>
    simp only [State.act, hp]
    exact buildCheck_untouched s
  | b1 =>
    simp only [State.act, hp]
    exact buildSize_untouched s
  | b2 =>
    simp only [State.act, hp]
    exact State.withVariant_untouched (buildBudget_untouched s)
  | b8 =>
    simp only [State.act, hp]
    exact State.withVariant_untouched (buildUser_untouched s)
  | kLoop =>
    simp only [State.act, hp]
    exact s.checksumStep_untouched
  | kWait =>
    simp only [State.act, hp]
    exact s.waitStep_untouched
  | b9 | b10 | eRun =>
    simp only [State.act, hp]
    constructor <;> rfl

theorem State.countDown_untouched (s : State) : s.Untouched s.countDown := by constructor <;> rfl

theorem State.tick_untouched (s : State) : s.Untouched s.tick := by
  unfold State.tick
  split
  · exact s.act_untouched
  · exact s.countDown_untouched.trans s.countDown.act_untouched

/-- What one sequencer step of a running command keeps, the whole run keeps. -/
theorem State.run_induction {P : State → Prop} (htick : ∀ t, P t → t.canRun = true → P t.tick) {s : State} (hs : P s)
    (n : Nat) : P (s.run n) := by
  induction n generalizing s with
  | zero => exact hs
  | succ n ih =>
    rw [State.run_succ]
    split
    · next hrun => exact ih (htick s hs hrun)
    · exact hs

theorem State.run_untouched (s : State) (n : Nat) : s.Untouched (s.run n) :=
  State.run_induction (P := s.Untouched) (fun t ht _ => ht.trans t.tick_untouched) (State.Untouched.refl s) n

/-- What a command's start adds to acceptance: its first phase, or its end at once. -/
def commandStart : Instr → State → State
  | .build => startBuild
  | .encode _ _ => startEncode
  | .checksum _ _ => startChecksum

/-- All a command's execution can answer (60_exceptions.md R300; 10_state.md R40). -/
theorem exec_cases (i : Instr) (s : State) :
    (s.rst = true ∧ exec i s = .next s)
      ∨ (s.rst = false ∧ s.status.busy = true ∧ exec i s = .next s.dropWrite)
      ∨ (s.rst = false ∧ s.status.busy = false ∧ s.params.check = false ∧ exec i s = .refused .illFormedParameters)
      ∨ (s.Ready ∧ exec i s = .next ((commandStart i (s.accept (encode i))).run seqFuel)) := by
  cases i <;> exact issue_cases _ _ s

/-- A ready machine runs the command from its start. -/
theorem exec_of_ready (i : Instr) {s : State} (h : s.Ready) :
    exec i s = .next ((commandStart i (s.accept (encode i))).run seqFuel) := by
  cases i <;> exact issue_of_ready _ _ s h

theorem startChecksum_cases (s : State) :
    (Variant.ofCode? s.cmdv.var = none ∧ startChecksum s = s.endWith .unknownChip)
      ∨ ∃ v, Variant.ofCode? s.cmdv.var = some v
          ∧ startChecksum s = { s with sz := ImgSize.ofBit s.cmdv.szb }.seedChecksum := by
  unfold startChecksum
  cases Variant.ofCode? s.cmdv.var <;> simp

theorem commandStart_untouched (i : Instr) (s : State) : s.Untouched (commandStart i s) := by
  cases i with
  | build => constructor <;> rfl
  | encode var fn => constructor <;> rfl
  | checksum var szb =>
    rcases startChecksum_cases s with ⟨-, heq⟩ | ⟨v, -, heq⟩ <;> rw [commandStart, heq] <;> constructor <;> rfl

/-- A step in which a running command goes on is a run of the sequencer. -/
theorem step_of_canRun {s t : State} (hrun : s.canRun = true) (h : step s = .next t) :
    s.coherent = true ∧ t = s.run seqFuel := by
  rcases step_cases s with ⟨-, hcoh, heq⟩ | ⟨-, -, heq⟩ | ⟨hno, -⟩ | ⟨hno, -⟩
  · rw [heq] at h
    exact ⟨hcoh, (Host.Outcome.next.inj h).symm⟩
  · simp [heq] at h
  · simp [hrun] at hno
  · simp [hrun] at hno

/-- Settles O55: no sequencer step touches the configuration, and acceptance writes only CMD, CMDV and STATUS. -/
theorem commandsWriteNoConfiguration : Obligations.CommandsWriteNoConfiguration := by
  refine ⟨fun i s t h => ?_, fun s t hrun h => ?_⟩
  · rcases exec_cases i s with ⟨-, heq⟩ | ⟨-, -, heq⟩ | ⟨-, -, -, heq⟩ | ⟨-, heq⟩ <;> rw [heq] at h
    · cases h
      simp
    · cases h
      simp [State.dropWrite]
    · cases h
    · cases h
      have hkept := (commandStart_untouched i (s.accept (encode i))).trans (State.run_untouched _ seqFuel)
      exact ⟨hkept.cfg, hkept.strM, hkept.strP, hkept.strS, hkept.udb, hkept.params⟩
  · obtain ⟨-, rfl⟩ := step_of_canRun hrun h
    have hkept := s.run_untouched seqFuel
    exact ⟨hkept.cfg, hkept.strM, hkept.strP, hkept.strS, hkept.udb, hkept.params⟩

end Sys2Proof.Machine
end

section
/-! SUPPORT. Every sequencer step keeps the canonical form of the RAMs (10_state.md R54..R56). -/

namespace Sys2Proof.Machine

@[simp] theorem State.memoriesWf_goto (s : State) (p : Phase) : (s.goto p).memoriesWf = s.memoriesWf := rfl

theorem memoriesWf_foldl {α : Type} {f : State → α → State} (hf : ∀ s a, s.memoriesWf = true → (f s a).memoriesWf = true)
    (l : List α) {s : State} (h : s.memoriesWf = true) : (l.foldl f s).memoriesWf = true := by
  induction l generalizing s with
  | nil => exact h
  | cons a l ih => exact ih (hf s a h)

theorem State.memoriesWf_putDesc (s : State) (r : RamId) (n : Nat) (h : s.memoriesWf = true) :
    (s.putDesc r n).memoriesWf = true :=
  memoriesWf_foldl (fun _ _ ht => State.memoriesWf_putNext _ _ (State.memoriesWf_putNext _ _ ht)) _
    (State.memoriesWf_putNext _ _ (State.memoriesWf_putNext _ _ h))

theorem State.memoriesWf_putString (s : State) (o l : ImgAddr) (b : Byte) (r : RamId) (n : Nat) (h : s.memoriesWf = true) :
    (s.putString o l b r n).memoriesWf = true :=
  State.memoriesWf_putImg _ _ _ (State.memoriesWf_putDesc _ _ _ (State.memoriesWf_putImg _ _ _ h))

theorem buildZero_memoriesWf (v : Variant) (s : State) (h : s.memoriesWf = true) : (buildZero v s).memoriesWf = true := by
  refine memoriesWf_foldl (fun t a ht => ?_) _ h
  split
  · exact ht
  · exact State.memoriesWf_putImg _ _ _ ht

theorem buildFixed_memoriesWf (v : Variant) (s : State) (h : s.memoriesWf = true) : (buildFixed v s).memoriesWf = true := by
  have hfields := State.memoriesWf_putImg _ s.params.tables.offPower (powerByte s.cfg) <|
    State.memoriesWf_putImg _ s.params.tables.offFlags (flagsByte s.cfg) <|
    State.memoriesWf_putImgHalf _ s.params.tables.offRel s.cfg.rel <|
    State.memoriesWf_putImgHalf _ 0x04 s.cfg.pid <| State.memoriesWf_putImgHalf s 0x02 s.cfg.vid h
  simp only [buildFixed, State.memoriesWf_goto]
  split
  · exact hfields
  · exact State.memoriesWf_putImg _ _ _ hfields

theorem buildStrings_memoriesWf (v : Variant) (s : State) (h : s.memoriesWf = true) :
    (buildStrings v s).memoriesWf = true := by
  simp only [buildStrings, State.memoriesWf_goto]
  exact State.memoriesWf_putString _ _ _ _ _ _ <| State.memoriesWf_putString _ _ _ _ _ _ <|
    State.memoriesWf_putString _ _ _ _ _ _ h

theorem buildPnp_memoriesWf (v : Variant) (s : State) (h : s.memoriesWf = true) : (buildPnp v s).memoriesWf = true := by
  simp only [buildPnp, State.memoriesWf_goto]
  split
  · exact State.memoriesWf_putNext _ _ (State.memoriesWf_putNext _ _ (State.memoriesWf_putNext _ _ h))
  · exact h

theorem buildChip_memoriesWf (v : Variant) (s : State) (h : s.memoriesWf = true) : (buildChip v s).memoriesWf = true := by
  have hlayout : (s.layoutPass v).memoriesWf = true :=
    memoriesWf_foldl (fun _ _ ht => State.memoriesWf_rmwImg _ _ _ _ ht) _ h
  have hgroup : ((s.layoutPass v).groupPass v).memoriesWf = true := by
    refine memoriesWf_foldl (fun t g ht => State.memoriesWf_rmwImg _ _ _ _ ?_) _ hlayout
    split <;> exact ht
  refine memoriesWf_foldl (fun t p ht => State.memoriesWf_rmwImg _ _ _ _ ?_) _ hgroup
  split <;> exact ht

theorem buildUser_memoriesWf (v : Variant) (s : State) (h : s.memoriesWf = true) : (buildUser v s).memoriesWf = true := by
  have hwarn : (s.userWarnings v).memoriesWf = true := by rwa [State.userWarnings_eq]
  rcases buildUser_cases v s with ⟨-, heq⟩ | ⟨-, -, heq⟩ | ⟨-, -, heq⟩ <;> rw [heq]
  · exact h
  · exact hwarn
  · exact memoriesWf_foldl (fun _ _ ht => State.memoriesWf_putImg _ _ _ ht) _ hwarn

theorem State.checksumStep_memoriesWf (s : State) (h : s.memoriesWf = true) : s.checksumStep.memoriesWf = true := by
  rcases s.checksumStep_cases with ⟨-, heq⟩ | ⟨-, -, -, -, heq⟩ | ⟨-, w, heq⟩ | ⟨-, heq⟩ <;> rw [heq]
  · exact h
  · exact h
  · exact h
  · rcases s.finishChecksum_cases with ⟨-, hend⟩ | ⟨-, hend⟩ <;> rw [hend]
    · exact State.memoriesWf_putImgHalf _ _ _ h
    · exact h

theorem State.withVariant_memoriesWf {s : State} {k : Variant → State → State} (hs : s.memoriesWf = true)
    (h : ∀ v, (k v s).memoriesWf = true) : (s.withVariant k).memoriesWf = true := by
  rcases s.withVariant_cases k with ⟨-, heq⟩ | ⟨v, -, heq⟩ <;> rw [heq]
  · exact hs
  · exact h v

theorem State.act_memoriesWf (s : State) (h : s.memoriesWf = true) : s.act.memoriesWf = true := by
  unfold State.act
  split
  · exact h
  · rcases buildCheck_cases s with ⟨code, -, heq⟩ | ⟨-, -, heq⟩ <;> rw [heq] <;> exact h
  · obtain ⟨id, n, heq⟩ := buildSize_frame s
    rwa [heq]
  · refine State.withVariant_memoriesWf h fun v => ?_
    rw [buildBudget_eq]
    split <;> exact h
  · exact State.withVariant_memoriesWf h fun v => buildZero_memoriesWf v s h
  · exact State.withVariant_memoriesWf h fun v => buildFixed_memoriesWf v s h
  · exact State.withVariant_memoriesWf h fun v => buildStrings_memoriesWf v s h
  · exact State.withVariant_memoriesWf h fun v => buildPnp_memoriesWf v s h
  · exact State.withVariant_memoriesWf h fun v => buildChip_memoriesWf v s h
  · exact State.withVariant_memoriesWf h fun v => buildUser_memoriesWf v s h
  · exact h
  · exact h
  · exact s.checksumStep_memoriesWf h
  · rcases s.waitStep_cases with ⟨k, data, err, rest, -, heq⟩ | ⟨-, heq⟩ <;> rw [heq]
    · rwa [State.takeAnswer_eq]
    · exact h
  · exact h

end Sys2Proof.Machine
end

section
/-! SUPPORT. The host's and the platform's side of the state: no sequencer step but the sample of DEV_CHIPID and the wait for
an answer looks at it (10_state.md R32, R40; 70_reset_and_hazards.md R360). -/

namespace Sys2Proof.Machine

/-- What host accesses, DEV_CHIPID changes and the passing of time leave behind while a command runs. -/
structure HostSide where
  hostViol : Bool
  hostRdata : Word
  draws : Nat
  devChipid : Byte
  chipidMoved : Bool
  inputs : List Arrival

/-- `s` with another host's side. -/
def State.withHostSide (s : State) (x : HostSide) : State :=
  { s with
    status := { s.status with hostViol := x.hostViol }, hostRdata := x.hostRdata, draws := x.draws
    devChipid := x.devChipid, chipidMoved := x.chipidMoved, inputs := x.inputs }

/-- The host's side of `s`. -/
def State.hostSide (s : State) : HostSide :=
  ⟨s.status.hostViol, s.hostRdata, s.draws, s.devChipid, s.chipidMoved, s.inputs⟩

/-! ### Functions of the state that ignore the host's side -/

/-- `f` neither reads nor writes the host's side. -/
def IgnoresHostSide (f : State → State) : Prop := ∀ s x, f (s.withHostSide x) = (f s).withHostSide x

theorem IgnoresHostSide.comp {f g : State → State} (hf : IgnoresHostSide f) (hg : IgnoresHostSide g) :
    IgnoresHostSide fun s => f (g s) := fun s x => (congrArg f (hg s x)).trans (hf (g s) x)

theorem IgnoresHostSide.ite {c : State → Prop} [DecidablePred c] {f g : State → State}
    (hc : ∀ s x, c (s.withHostSide x) ↔ c s) (hf : IgnoresHostSide f) (hg : IgnoresHostSide g) :
    IgnoresHostSide fun s => if c s then f s else g s := by
  intro s x
  by_cases h : c s
  · simp only [h, (hc s x).2 h, if_true, hf s x]
  · simp only [h, mt (hc s x).1 h, if_false, hg s x]

theorem IgnoresHostSide.foldl {α : Type} {f : State → α → State} (hf : ∀ a, IgnoresHostSide (f · a)) (l : List α) :
    IgnoresHostSide fun s => l.foldl f s :=
  fun _ x => List.foldl_hom (State.withHostSide · x) fun s a => hf a s x

theorem ignoresHostSide_withVariant {k : Variant → State → State} (hk : ∀ v, IgnoresHostSide (k v)) :
    IgnoresHostSide fun s => s.withVariant k := by
  intro s x
  show (s.withHostSide x).withVariant k = (s.withVariant k).withHostSide x
  rcases s.withVariant_cases k with ⟨hv, heq⟩ | ⟨v, hv, heq⟩
  · rcases (s.withHostSide x).withVariant_cases k with ⟨-, heq'⟩ | ⟨w, hw, -⟩
    · rw [heq, heq']; rfl
    · exact absurd (hv.symm.trans hw) (by simp)
  · rcases (s.withHostSide x).withVariant_cases k with ⟨hv', -⟩ | ⟨w, hw, heq'⟩
    · exact absurd (hv.symm.trans hv') (by simp)
    · obtain rfl := Option.some.inj (hv.symm.trans hw)
      rw [heq, heq', hk v]

theorem ignoresHostSide_endWith (code : ErrorCode) : IgnoresHostSide fun s => s.endWith code := fun _ _ => rfl

theorem ignoresHostSide_goto (p : Phase) : IgnoresHostSide fun s => s.goto p := fun _ _ => rfl

theorem ignoresHostSide_buildCheck : IgnoresHostSide buildCheck :=
  .ite (fun _ _ => Iff.rfl) (ignoresHostSide_endWith _)
    (ignoresHostSide_withVariant (k := fun _ t => t.goto .b1) fun _ => ignoresHostSide_goto _)

theorem ignoresHostSide_buildBudget (v : Variant) : IgnoresHostSide (buildBudget v) :=
  .ite (fun _ _ => Iff.rfl) (fun _ _ => rfl) fun _ _ => rfl

theorem ignoresHostSide_buildZero (v : Variant) : IgnoresHostSide (buildZero v) := by
  intro s x
  exact congrArg (State.goto · .b4) <| IgnoresHostSide.foldl
    (f := fun t a => if keptByStep3 s.params v a then t else t.putImg (BitVec.ofNat 8 a) 0x00)
    (fun _ => .ite (fun _ _ => Iff.rfl) (fun _ _ => rfl) fun _ _ => rfl) (List.range s.sz.bytes) s x

theorem ignoresHostSide_buildFixed (v : Variant) : IgnoresHostSide (buildFixed v) := by
  unfold buildFixed
  split
  · exact fun _ _ => rfl
  · exact fun _ _ => rfl

theorem State.ramByte_withHostSide (s : State) (x : HostSide) (r : RamId) (a : Nat) :
    (s.withHostSide x).ramByte r a = s.ramByte r a := by
  cases r <;> rfl

theorem ignoresHostSide_putDesc (r : RamId) (n : Nat) : IgnoresHostSide fun s => s.putDesc r n :=
  (IgnoresHostSide.foldl (f := fun t j => (t.putNext (t.ramByte r j)).putNext 0x00)
    (fun j t y => by simp only [State.ramByte_withHostSide]; rfl) (List.range n)).comp
    (g := fun t => (t.putNext (byteOf (2 * n + 2))).putNext 0x03) fun _ _ => rfl

theorem ignoresHostSide_putString (o l : ImgAddr) {b : State → Byte} (hb : ∀ s x, b (s.withHostSide x) = b s) (r : RamId)
    (n : Nat) : IgnoresHostSide fun s => s.putString o l (b s) r n := by
  intro s x
  have hdesc := ignoresHostSide_putDesc r n (s.putImg o (b s)) x
  show (((s.withHostSide x).putImg o (b (s.withHostSide x))).putDesc r n).putImg l _ = _
  rw [hb]
  exact congrArg (State.putImg · l (byteOf (2 * n + 2))) hdesc

theorem State.mfrSlot_withHostSide (s : State) (x : HostSide) : (s.withHostSide x).mfrSlot = s.mfrSlot := rfl

theorem ignoresHostSide_buildStrings (v : Variant) : IgnoresHostSide (buildStrings v) := by
  intro s x
  have hmfr := ignoresHostSide_putString 0x0E 0x0F State.mfrSlot_withHostSide .strM s.cfg.mfrLen
  have hprod := ignoresHostSide_putString 0x10 0x11 (b := State.markedSlot) (fun _ _ => rfl) .strP s.cfg.prodLen
  have hser := ignoresHostSide_putString 0x12 0x13 (b := State.markedSlot) (fun _ _ => rfl) .strS s.cfg.serLen
  exact congrArg (State.goto · .b6) ((hser.comp (hprod.comp hmfr)) { s with cur := s.params.strStart v } x)

theorem ignoresHostSide_buildPnp (v : Variant) : IgnoresHostSide (buildPnp v) := by
  unfold buildPnp
  split
  · exact fun _ _ => rfl
  · exact fun _ _ => rfl

theorem ignoresHostSide_applyGroup (v : Variant) (g : Nat) : IgnoresHostSide (State.applyGroup v · g) := by
  have heq (s : State) : State.applyGroup v s g =
      if 3 < (s.cfg.drive g).toNat then
        (s.warn .drive).rmwImg (byteOf (s.params.groupBase v + g / 2)) (groupMask g) (groupNibble s.cfg g <<< (4 * (g % 2)))
      else s.rmwImg (byteOf (s.params.groupBase v + g / 2)) (groupMask g) (groupNibble s.cfg g <<< (4 * (g % 2))) := by
    unfold State.applyGroup
    split <;> rfl
  simp only [heq]
  exact .ite (fun _ _ => Iff.rfl) (fun _ _ => rfl) fun _ _ => rfl

theorem ignoresHostSide_applyCbus (v : Variant) (p : CbusSlot × Nat) : IgnoresHostSide (State.applyCbus v · p) := by
  have heq (s : State) : State.applyCbus v s p =
      if (s.params.variant v).cbusMax < (s.cfg.cbusCode p.2).toNat then
        (s.warn .cbus).rmwImg p.1.off (cbusMask (s.params.variant v).cbusW p.1.shift)
          (cbusValue (s.params.variant v) (s.cfg.cbusCode p.2) <<< p.1.shift)
      else
        s.rmwImg p.1.off (cbusMask (s.params.variant v).cbusW p.1.shift)
          (cbusValue (s.params.variant v) (s.cfg.cbusCode p.2) <<< p.1.shift) := by
    unfold State.applyCbus
    dsimp only
    split <;> rfl
  simp only [heq]
  exact .ite (fun _ _ => Iff.rfl) (fun _ _ => rfl) fun _ _ => rfl

theorem ignoresHostSide_layoutPass (v : Variant) : IgnoresHostSide (State.layoutPass v) := by
  intro s x
  have hentry (e : LayoutEntry) : IgnoresHostSide (State.applyEntry v · e) := fun t y => by
    simp only [State.applyEntry]
    cases e.kind <;> rfl
  exact IgnoresHostSide.foldl hentry (s.params.variant v).layout s x

theorem ignoresHostSide_groupPass (v : Variant) : IgnoresHostSide (State.groupPass v) := fun s x =>
  IgnoresHostSide.foldl (ignoresHostSide_applyGroup v) (List.range (s.params.nGroups v)) s x

theorem ignoresHostSide_cbusPass (v : Variant) : IgnoresHostSide (State.cbusPass v) := fun s x =>
  IgnoresHostSide.foldl (ignoresHostSide_applyCbus v) (s.params.variant v).cbusSlots.zipIdx s x

theorem ignoresHostSide_buildChip (v : Variant) : IgnoresHostSide (buildChip v) :=
  (ignoresHostSide_goto .b8).comp <| (ignoresHostSide_cbusPass v).comp <|
    (ignoresHostSide_groupPass v).comp (ignoresHostSide_layoutPass v)

theorem ignoresHostSide_userWarnings (v : Variant) : IgnoresHostSide (State.userWarnings v) := by
  intro s x
  simp only [State.userWarnings_eq]
  rfl

theorem ignoresHostSide_copyUser : IgnoresHostSide State.copyUser := by
  intro s x
  exact IgnoresHostSide.foldl
    (f := fun t j => t.putImg (BitVec.ofNat 8 (s.cfg.udOffset + j)) (t.ramByte .udb j)) (fun _ _ _ => rfl)
    (List.range s.cfg.udSize) s x

theorem ignoresHostSide_buildUser (v : Variant) : IgnoresHostSide (buildUser v) :=
  .ite (fun _ _ => Iff.rfl) (ignoresHostSide_goto .b9) <|
    .ite (c := fun s => s.sz.bytes < s.cfg.udOffset + s.cfg.udSize) (fun _ _ => Iff.rfl)
      ((ignoresHostSide_endWith .sizeExceeded).comp (ignoresHostSide_userWarnings v))
      ((ignoresHostSide_goto .b9).comp (ignoresHostSide_copyUser.comp (ignoresHostSide_userWarnings v)))

theorem ignoresHostSide_checksumStep : IgnoresHostSide State.checksumStep :=
  .ite (fun _ _ => Iff.rfl)
    (.ite (fun _ _ => Iff.rfl) (fun _ _ => rfl) (.ite (fun _ _ => Iff.rfl) (fun _ _ => rfl) fun _ _ => rfl))
    (.ite (fun _ _ => Iff.rfl) (fun _ _ => rfl) fun _ _ => rfl)

theorem State.act_withHostSide (s : State) (x : HostSide) (h1 : s.phase ≠ .b1) (hk : s.phase ≠ .kWait) :
    (s.withHostSide x).act = s.act.withHostSide x := by
  have hphase : (s.withHostSide x).phase = s.phase := rfl
  unfold State.act
  rw [hphase]
  split
  · rfl
  · exact ignoresHostSide_buildCheck s x
  · next hp => exact absurd hp h1
  · exact ignoresHostSide_withVariant ignoresHostSide_buildBudget s x
  · exact ignoresHostSide_withVariant ignoresHostSide_buildZero s x
  · exact ignoresHostSide_withVariant ignoresHostSide_buildFixed s x
  · exact ignoresHostSide_withVariant ignoresHostSide_buildStrings s x
  · exact ignoresHostSide_withVariant ignoresHostSide_buildPnp s x
  · exact ignoresHostSide_withVariant ignoresHostSide_buildChip s x
  · exact ignoresHostSide_withVariant ignoresHostSide_buildUser s x
  · rfl
  · rfl
  · exact ignoresHostSide_checksumStep s x
  · next hp => exact absurd hp hk
  · rfl

/-! ### Inputs to come, and HOST_VIOL -/

/-- But for step 1 and K_WAIT, no sequencer step writes the host's side. -/
theorem State.act_hostSide {s : State} (h1 : s.phase ≠ .b1) (hk : s.phase ≠ .kWait) : s.act.hostSide = s.hostSide := by
  have hact : s.act = s.act.withHostSide s.hostSide := s.act_withHostSide s.hostSide h1 hk
  rw [hact]
  rfl

/-- Outside K_WAIT the sequencer does not look at the inputs to come. -/
theorem State.act_inputs (s : State) (l : List Arrival) (hk : s.phase ≠ .kWait) :
    { s with inputs := l }.act = { s.act with inputs := l } := by
  by_cases h1 : s.phase = .b1
  · simp only [State.act, h1, Machine.buildSize, State.sampleChipid]
    split <;> rfl
  · calc { s with inputs := l }.act
        = s.act.withHostSide { s.hostSide with inputs := l } := s.act_withHostSide { s.hostSide with inputs := l } h1 hk
      _ = { s.act with inputs := l } := by rw [← State.act_hostSide h1 hk]; rfl

/-- A running command does not look at HOST_VIOL, and keeps it (10_state.md R40). -/
theorem State.act_dropWrite (s : State) : s.dropWrite.act = s.act.dropWrite := by
  have hphase : s.dropWrite.phase = s.phase := rfl
  by_cases hk : s.phase = .kWait
  · simp only [State.act, hphase, hk]
    rcases s.waitStep_cases with ⟨k, data, err, rest, hin, heq⟩ | ⟨hno, heq⟩
    · have hin' : s.dropWrite.inputs = ⟨k, .deviceAck data err⟩ :: rest := hin
      simp only [State.waitStep, hin, hin', State.takeAnswer_eq]
      rfl
    · rcases s.dropWrite.waitStep_cases with ⟨k, data, err, rest, hin, -⟩ | ⟨-, heq'⟩
      · have hin' : s.inputs = ⟨k, .deviceAck data err⟩ :: rest := hin
        simp [State.ackNext, hin'] at hno
      · rw [heq, heq']
  · by_cases h1 : s.phase = .b1
    · simp only [State.act, hphase, h1, Machine.buildSize, State.sampleChipid]
      have hmoved : s.dropWrite.chipidMoved = s.chipidMoved := rfl
      rw [hmoved]
      split <;> rfl
    · calc s.dropWrite.act
          = s.act.withHostSide { s.hostSide with hostViol := true } :=
            s.act_withHostSide { s.hostSide with hostViol := true } h1 hk
        _ = s.act.dropWrite := by rw [← State.act_hostSide h1 hk]; rfl

theorem State.tick_dropWrite (s : State) : s.dropWrite.tick = s.tick.dropWrite := by
  have hphase : s.dropWrite.phase = s.phase := rfl
  unfold State.tick
  rw [hphase]
  split
  · exact s.act_dropWrite
  · exact s.countDown.act_dropWrite

theorem State.run_dropWrite (s : State) (n : Nat) : s.dropWrite.run n = (s.run n).dropWrite := by
  induction n generalizing s with
  | zero => rfl
  | succ n ih =>
    have hcan : s.dropWrite.canRun = s.canRun := rfl
    rw [State.run_succ, State.run_succ, hcan]
    split
    · rw [State.tick_dropWrite, ih]
    · rfl

/-- A CMD write while BUSY = 1 is dropped, whatever its word (10_state.md R40). -/
theorem writeCmd_of_busy {s : State} (w : Word) (hr : s.rst = false) (hb : s.status.busy = true) :
    writeCmd w s = .next s.dropWrite := by
  have hissue (start : State → State) (u : Word) : issue u start s = .next s.dropWrite := by simp [issue, hr, hb]
  unfold writeCmd
  split
  · next i _ => cases i <;> exact hissue _ _
  · exact hissue _ _

theorem arrive_hostWrite_of_busy {s : State} (a : BusAddr) (w : Word) (hr : s.rst = false) (hb : s.status.busy = true) :
    arrive (.hostWrite a w) s = .next s.dropWrite := by
  by_cases ha : busTarget a = .cmd
  · exact (if_pos ha).trans (writeCmd_of_busy w hr hb)
  · refine (if_neg ha).trans ?_
    simp [hostWrite, hr, hb]

/-- Settles O38: a host write of a busy machine is dropped, and no sequencer step looks at the bit it sets. -/
theorem busyWritesOnlySetHostViol : Obligations.BusyWritesOnlySetHostViol :=
  ⟨fun _ a w hr hb => arrive_hostWrite_of_busy a w hr hb, fun s n => s.run_dropWrite n, fun _ _ => ⟨rfl, rfl⟩⟩

end Sys2Proof.Machine
end

section
/-! SUPPORT. The invariant of every run (`State.Inv`), step by step of the sequencer and input by input. -/

namespace Sys2Proof.Machine

/-! ### Ending a command, and going on -/

/-- While a command runs, no end of a command shows in STATUS (10_state.md R36..R38). -/
theorem State.Inv.flags_of_busy {s : State} (h : s.Inv) (hb : s.status.busy = true) :
    s.status.done = false ∧ s.status.built = false ∧ s.status.err = .none := by
  have hdone : s.status.done = false := by
    by_contra hne
    simpa [hb] using h.doneIdle (by simpa using hne)
  refine ⟨hdone, ?_, ?_⟩
  · by_contra hne
    simpa [hdone] using (h.builtDone (by simpa using hne)).1
  · by_contra hne
    simpa [hdone] using h.errDone hne

/-- The invariant does not speak of the host's side. -/
theorem State.Inv.withHostSide {s : State} (h : s.Inv) (x : HostSide) : (s.withHostSide x).Inv :=
  ⟨h.memories, h.reserved, h.running, h.idle, h.inReset, h.doneIdle, h.builtDone, h.errDone, h.size, h.waiting, h.budget,
    h.uarea⟩

/-- So BUILT asks nothing of the code with which the command will end. -/
theorem State.Inv.built_busy {s : State} (h : s.Inv) (hb : s.status.busy = true) {code : ErrorCode} :
    s.status.built = true → code = .none := by
  obtain ⟨-, hbuilt, -⟩ := h.flags_of_busy hb
  simp [hbuilt]

theorem State.Inv.withInputs {s : State} (h : s.Inv) (inputs : List Arrival) : { s with inputs := inputs }.Inv :=
  h.withHostSide { s.hostSide with inputs := inputs }

/-- The end of a command meets the invariant, whatever the command did before, where the results are in range and BUILT
shows no error (60_exceptions.md R306). -/
theorem inv_endWith {s : State} {code : ErrorCode} (hmem : s.memoriesWf = true)
    (hreserved : s.cfg.ReservedClear s.params.caps) (hwait : s.rdwWait = false)
    (hbuilt : s.status.built = true → code = .none) (hsize : s.imgSize = 0x000 ∨ s.imgSize = 0x080 ∨ s.imgSize = 0x100)
    (huarea : s.params.tables = SourceTables.standard → s.uarea.toNat ≤ 214) : (s.endWith code).Inv where
  memories := hmem
  reserved := hreserved
  running := fun h => by simp [Status.ended] at h
  idle := fun _ => ⟨rfl, rfl, hwait⟩
  inReset := fun _ => rfl
  doneIdle := fun _ => rfl
  builtDone := fun h => ⟨rfl, hbuilt h⟩
  errDone := fun _ => rfl
  size := hsize
  waiting := fun h => by simp at h
  budget := fun h => by simp [State.pastBudget, Status.ended] at h
  uarea := huarea

/-- A running command may end at any point where no device read is out. -/
theorem State.Inv.endWith {s : State} (h : s.Inv) (hb : s.status.busy = true) (hwait : s.rdwWait = false)
    (code : ErrorCode) : (s.endWith code).Inv :=
  inv_endWith h.memories h.reserved hwait (h.built_busy hb) h.size h.uarea

/-- `t` has the results that only the end of a command writes, and what STATUS says of an end, as `s` has them. -/
structure State.GoesOn (s t : State) : Prop where
  busy : t.status.busy = s.status.busy
  done : t.status.done = s.status.done
  built : t.status.built = s.status.built
  err : t.status.err = s.status.err
  uarea : t.uarea = s.uarea
  imgSize : t.imgSize = s.imgSize

/-- A running command that goes on keeps the invariant, where it stands as its opcode asks. -/
theorem State.Inv.goesOn {s t : State} (h : s.Inv) (hb : s.status.busy = true) (hkept : s.Untouched t) (hon : s.GoesOn t)
    (hmem : t.memoriesWf = true) (hcoh : t.coherent = true)
    (hwaiting : t.phase = .kWait →
      t.on230X = true ∧ t.rdwIdx = t.wi ∧ t.params.tables.liveLo ≤ t.wi.toNat ∧ t.wi.toNat < t.params.tables.liveHi
        ∧ t.wi.toNat < t.wordBound)
    (hbudget : t.pastBudget = true → 0 ≤ t.ua ∧ (t.params.tables = SourceTables.standard → t.ua ≤ 214)) : t.Inv := by
  obtain ⟨hdone, hbuilt, herr⟩ := h.flags_of_busy hb
  exact {
    memories := hmem
    reserved := by rw [hkept.cfg, hkept.params]; exact h.reserved
    running := fun _ => hcoh
    idle := fun hidle => by simp [hon.busy, hb] at hidle
    inReset := fun hrst => by simp [h.inReset (hkept.rst ▸ hrst)] at hb
    doneIdle := fun hd => by simp [hon.done, hdone] at hd
    builtDone := fun hbt => by simp [hon.built, hbuilt] at hbt
    errDone := fun he => by simp [hon.err, herr] at he
    size := hon.imgSize ▸ h.size
    waiting := hwaiting
    budget := hbudget
    uarea := by rw [hkept.params, hon.uarea]; exact h.uarea }

/-! ### The phases of BUILD -/

/-- The phases of BUILD past its check. -/
def Phase.pastCheck : Phase → Bool
  | .b1 | .b2 | .b3 | .b4 | .b5 | .b6 | .b7 | .b8 | .b9 | .b10 => true
  | _ => false

theorem State.coherent_iff_of_pastCheck {s : State} (hp : s.phase.pastCheck = true) :
    s.coherent = true ↔ s.cmdv.op = opBuild ∧ (Variant.ofCode? s.runCode).isSome = true ∧ s.rdwWait = false
      ∧ s.rdwReq = false := by
  unfold State.coherent
  cases h : s.phase <;> simp [h, Phase.pastCheck, and_assoc] at hp ⊢

/-- The loop is coherent for BUILD and CHECKSUM of a known variant, with no request out. -/
theorem State.coherent_iff_of_kLoop {s : State} (hp : s.phase = .kLoop) :
    s.coherent = true ↔ (s.cmdv.op = opBuild ∨ s.cmdv.op = opChecksum) ∧ (Variant.ofCode? s.runCode).isSome = true
      ∧ s.rdwWait = false ∧ s.rdwReq = false := by
  simp [State.coherent, hp, and_assoc]

theorem State.coherent_iff_of_kWait {s : State} (hp : s.phase = .kWait) :
    s.coherent = true ↔ (s.cmdv.op = opBuild ∨ s.cmdv.op = opChecksum) ∧ (Variant.ofCode? s.runCode).isSome = true
      ∧ s.rdwWait = true ∧ s.rdwReq = true := by
  simp [State.coherent, hp, and_assoc]

theorem State.Untouched.runCode {s t : State} (h : s.Untouched t) : t.runCode = s.runCode := by
  simp [State.runCode, h.cmdv, h.cfg]

/-- A BUILD that goes from one of its phases past the check to another keeps the invariant, where UA is as step 2 asks. -/
theorem State.Inv.nextPhase {s t : State} (h : s.Inv) (hb : s.status.busy = true) (hp : s.phase.pastCheck = true)
    (hkept : s.Untouched t) (hon : s.GoesOn t) (hmem : t.memoriesWf = true) (hpt : t.phase.pastCheck = true)
    (hwait : t.rdwWait = s.rdwWait) (hreq : t.rdwReq = s.rdwReq)
    (hbudget : t.pastBudget = true → 0 ≤ t.ua ∧ (t.params.tables = SourceTables.standard → t.ua ≤ 214)) : t.Inv := by
  obtain ⟨hop, hvariant, hw, hr⟩ := (State.coherent_iff_of_pastCheck hp).1 (h.running hb)
  refine h.goesOn hb hkept hon hmem ?_ (fun hk => by simp [hk, Phase.pastCheck] at hpt) hbudget
  exact (State.coherent_iff_of_pastCheck hpt).2
    ⟨by rw [hkept.cmdv, hop], by rwa [hkept.runCode], hwait.trans hw, hreq.trans hr⟩

/-- The same from step 3 on, where UA stays as step 2 left it. -/
theorem State.Inv.nextPhase_of_ua {s t : State} (h : s.Inv) (hb : s.status.busy = true) (hp : s.phase.pastCheck = true)
    (hpast : s.phase ≠ .b1 ∧ s.phase ≠ .b2) (hkept : s.Untouched t) (hon : s.GoesOn t) (hmem : t.memoriesWf = true)
    (hpt : t.phase.pastCheck = true) (hwait : t.rdwWait = s.rdwWait) (hreq : t.rdwReq = s.rdwReq) (hua : t.ua = s.ua) :
    t.Inv := by
  obtain ⟨hop, -⟩ := (State.coherent_iff_of_pastCheck hp).1 (h.running hb)
  have hcheck : s.phase ≠ .bCheck := fun hk => by simp [hk, Phase.pastCheck] at hp
  have hua' := h.budget (by simp [State.pastBudget, hb, hop, hpast, hcheck])
  exact h.nextPhase hb hp hkept hon hmem hpt hwait hreq fun _ => by rwa [hua, hkept.params]

/-- Past its check a running BUILD has no read out. -/
theorem State.Inv.rdwWait_of_pastCheck {s : State} (h : s.Inv) (hb : s.status.busy = true) (hp : s.phase.pastCheck = true) :
    s.rdwWait = false := by
  obtain ⟨-, -, hwait, -⟩ := (State.coherent_iff_of_pastCheck hp).1 (h.running hb)
  exact hwait

/-- A step that runs with the known variant keeps the invariant if it does on every variant. -/
theorem State.Inv.withVariant {s : State} {k : Variant → State → State} (h : s.Inv) (hb : s.status.busy = true)
    (hp : s.phase.pastCheck = true) (hk : ∀ v, (k v s).Inv) : (s.withVariant k).Inv := by
  rcases s.withVariant_cases k with ⟨-, heq⟩ | ⟨v, -, heq⟩ <;> rw [heq]
  · exact h.endWith hb (h.rdwWait_of_pastCheck hb hp) _
  · exact hk v

theorem State.Inv.buildCheck {s : State} (h : s.Inv) (hb : s.status.busy = true) (hp : s.phase = .bCheck) :
    (buildCheck s).Inv := by
  have hcoh := h.running hb
  simp only [State.coherent, hp, Bool.and_eq_true, beq_iff_eq, Bool.not_eq_true'] at hcoh
  obtain ⟨⟨hop, hwait⟩, hreq⟩ := hcoh
  rcases buildCheck_cases s with ⟨code, -, heq⟩ | ⟨-, ⟨v, hv⟩, heq⟩ <;> rw [heq]
  · exact h.endWith hb hwait code
  · refine h.goesOn hb (by constructor <;> rfl) ⟨rfl, rfl, rfl, rfl, rfl, rfl⟩ h.memories ?_ (by simp)
      (by simp [State.pastBudget])
    exact (State.coherent_iff_of_pastCheck rfl).2 ⟨hop, by simp [State.runCode, hop, hv], hwait, hreq⟩

theorem State.Inv.buildSize {s : State} (h : s.Inv) (hb : s.status.busy = true) (hp : s.phase = .b1) :
    (Machine.buildSize s).Inv := by
  obtain ⟨id, n, heq⟩ := buildSize_frame s
  rw [heq]
  exact h.nextPhase hb (by rw [hp]; rfl) (by constructor <;> rfl) ⟨rfl, rfl, rfl, rfl, rfl, rfl⟩ h.memories rfl rfl rfl
    (by simp [State.pastBudget])

/-- The largest BASE of the default tables is 214 (40_build.md R173). -/
theorem userArea_le_of_standard {p : Params} (hp : p.tables = SourceTables.standard) (v : Variant) (c : ConfigRegs) :
    userArea p v c ≤ 214 := by
  have hbase : p.base v ≤ 214 := by
    rw [Params.base, hp]
    cases v <;> decide
  unfold userArea
  omega

theorem State.Inv.buildBudget {s : State} (h : s.Inv) (hb : s.status.busy = true) (hp : s.phase = .b2) (v : Variant) :
    (buildBudget v s).Inv := by
  have hpast : s.phase.pastCheck = true := by rw [hp]; rfl
  rw [buildBudget_eq]
  split
  · exact inv_endWith h.memories h.reserved (h.rdwWait_of_pastCheck hb hpast) (h.built_busy hb) h.size h.uarea
  · next hua =>
    exact h.nextPhase hb hpast (by constructor <;> rfl) ⟨rfl, rfl, rfl, rfl, rfl, rfl⟩ h.memories rfl rfl rfl
      fun _ => ⟨Int.not_lt.1 hua, fun htables => userArea_le_of_standard htables v s.cfg⟩

/-- Steps 3..7 keep the invariant: they change IMG, CUR, PHASE and warnings. -/
theorem State.Inv.imagePhase {s t : State} (h : s.Inv) (hb : s.status.busy = true) (hp : s.phase.pastCheck = true)
    (hpast : s.phase ≠ .b1 ∧ s.phase ≠ .b2) (hmem : t.memoriesWf = true)
    (hframe : ∃ m p c drive cbus start ovl, p.pastCheck = true ∧
      t = { s with
        img := m, phase := p, cur := c
        status := { s.status with wDrive := drive, wCbus := cbus, wUdStart := start, wUdOvl := ovl } }) : t.Inv := by
  obtain ⟨m, p, c, drive, cbus, start, ovl, hpt, rfl⟩ := hframe
  exact h.nextPhase_of_ua hb hp hpast (by constructor <;> rfl) ⟨rfl, rfl, rfl, rfl, rfl, rfl⟩ hmem hpt rfl rfl rfl

theorem State.Inv.buildUser {s : State} (h : s.Inv) (hb : s.status.busy = true) (hp : s.phase = .b8) (v : Variant) :
    (buildUser v s).Inv := by
  have hpast : s.phase.pastCheck = true := by rw [hp]; rfl
  have hmem := buildUser_memoriesWf v s h.memories
  obtain ⟨m, hcopy⟩ := (s.userWarnings v).copyUser_frame
  rcases buildUser_cases v s with ⟨-, heq⟩ | ⟨-, -, heq⟩ | ⟨-, -, heq⟩
  · exact h.imagePhase hb hpast (by simp [hp]) hmem ⟨_, _, _, _, _, _, _, rfl, heq⟩
  · rw [heq, State.userWarnings_eq]
    exact inv_endWith h.memories h.reserved (h.rdwWait_of_pastCheck hb hpast) (h.built_busy hb) h.size h.uarea
  · rw [hcopy, State.userWarnings_eq] at heq
    exact h.imagePhase hb hpast (by simp [hp]) hmem ⟨_, _, _, _, _, _, _, rfl, heq⟩

/-- Step 10 publishes results that are in range (10_state.md R41, R44). -/
theorem State.Inv.buildResults {s : State} (h : s.Inv) (hb : s.status.busy = true) (hp : s.phase = .b10) :
    (buildResults s).Inv := by
  obtain ⟨hop, -, hwait, -⟩ := (State.coherent_iff_of_pastCheck (by rw [hp]; rfl)).1 (h.running hb)
  obtain ⟨hlow, hhigh⟩ := h.budget (by simp [State.pastBudget, hb, hop, hp])
  refine inv_endWith h.memories h.reserved hwait (fun _ => rfl) ?_ fun htables => ?_
  · show BitVec.ofNat 9 s.sz.bytes = _ ∨ BitVec.ofNat 9 s.sz.bytes = _ ∨ BitVec.ofNat 9 s.sz.bytes = _
    cases s.sz <;> decide
  · have := hhigh htables
    show (BitVec.ofInt 16 s.ua).toNat ≤ 214
    rw [BitVec.toNat_ofInt]
    omega

/-! ### The checksum procedure and ENCODE -/

theorem State.Inv.seedChecksum {s : State} (h : s.Inv) (hb : s.status.busy = true) (hp : s.phase = .b9) :
    s.seedChecksum.Inv := by
  obtain ⟨hop, hvariant, hwait, hreq⟩ := (State.coherent_iff_of_pastCheck (by rw [hp]; rfl)).1 (h.running hb)
  refine h.goesOn hb (by constructor <;> rfl) ⟨rfl, rfl, rfl, rfl, rfl, rfl⟩ h.memories ?_ (by simp) fun _ =>
    h.budget (by simp [State.pastBudget, hb, hop, hp])
  exact (State.coherent_iff_of_kLoop rfl).2 ⟨.inl hop, hvariant, hwait, hreq⟩

/-- Where a BUILD runs its checksum, UA is as step 2 left it. -/
theorem State.Inv.budget_of_checksum {s t : State} (h : s.Inv) (hb : s.status.busy = true)
    (hp : s.phase = .kLoop ∨ s.phase = .kWait) (hop : t.cmdv = s.cmdv) (hua : t.ua = s.ua) (hparams : t.params = s.params) :
    t.pastBudget = true → 0 ≤ t.ua ∧ (t.params.tables = SourceTables.standard → t.ua ≤ 214) := by
  intro hpast
  simp only [State.pastBudget, Bool.and_eq_true, beq_iff_eq, hop] at hpast
  obtain ⟨⟨-, hbuild⟩, -⟩ := hpast
  rw [hua, hparams]
  refine h.budget ?_
  rcases hp with hp | hp <;> simp [State.pastBudget, hb, hbuild, hp]

theorem State.Inv.checksumStep {s : State} (h : s.Inv) (hb : s.status.busy = true) (hp : s.phase = .kLoop) :
    s.checksumStep.Inv := by
  obtain ⟨hop, hvariant, hwait, hreq⟩ := (State.coherent_iff_of_kLoop hp).1 (h.running hb)
  have hbudget {t : State} := h.budget_of_checksum (t := t) hb (.inl hp)
  have hloop {t : State} (hkept : s.Untouched t) (hon : s.GoesOn t) (hmem : t.memoriesWf = true) (hpt : t.phase = .kLoop)
      (hw : t.rdwWait = s.rdwWait) (hr : t.rdwReq = s.rdwReq) (hua : t.ua = s.ua) : t.Inv :=
    h.goesOn hb hkept hon hmem
      ((State.coherent_iff_of_kLoop hpt).2
        ⟨by rwa [hkept.cmdv], by rwa [hkept.runCode], hw.trans hwait, hr.trans hreq⟩)
      (by simp [hpt]) (hbudget hkept.cmdv hua hkept.params)
  have hmem := s.checksumStep_memoriesWf h.memories
  rcases s.checksumStep_cases with ⟨-, heq⟩ | ⟨hbound, h230, hlo, hhi, heq⟩ | ⟨-, w, heq⟩ | ⟨-, heq⟩
  · rw [heq]
    exact hloop (by constructor <;> rfl) ⟨rfl, rfl, rfl, rfl, rfl, rfl⟩ h.memories hp rfl rfl rfl
  · rw [heq]
    exact h.goesOn hb (by constructor <;> rfl) ⟨rfl, rfl, rfl, rfl, rfl, rfl⟩ h.memories
      ((State.coherent_iff_of_kWait rfl).2 ⟨hop, hvariant, rfl, rfl⟩) (fun _ => ⟨h230, rfl, hlo, hhi, hbound⟩)
      (hbudget rfl rfl rfl)
  · rw [heq]
    exact hloop (by constructor <;> rfl) ⟨rfl, rfl, rfl, rfl, rfl, rfl⟩ h.memories hp rfl rfl rfl
  · rcases s.finishChecksum_cases with ⟨hbuild, hend⟩ | ⟨-, hend⟩
    · rw [heq, hend] at hmem ⊢
      exact h.goesOn hb (by constructor <;> rfl) ⟨rfl, rfl, rfl, rfl, rfl, rfl⟩ hmem
        ((State.coherent_iff_of_pastCheck rfl).2 ⟨hbuild, hvariant, hwait, hreq⟩) (by simp) (hbudget rfl rfl rfl)
    · rw [heq, hend]
      exact inv_endWith h.memories h.reserved hwait (fun _ => rfl) h.size h.uarea

theorem State.Inv.waitStep {s : State} (h : s.Inv) (hb : s.status.busy = true) (hp : s.phase = .kWait) :
    s.waitStep.Inv := by
  obtain ⟨hop, hvariant, -, -⟩ := (State.coherent_iff_of_kWait hp).1 (h.running hb)
  rcases s.waitStep_cases with ⟨k, data, err, rest, -, heq⟩ | ⟨-, heq⟩ <;> rw [heq]
  · rw [State.takeAnswer_eq]
    exact h.goesOn hb (by constructor <;> rfl) ⟨rfl, rfl, rfl, rfl, rfl, rfl⟩ h.memories
      ((State.coherent_iff_of_kLoop rfl).2 ⟨hop, hvariant, rfl, rfl⟩) (by simp)
      (h.budget_of_checksum hb (.inr hp) rfl rfl rfl)
  · exact h

theorem State.Inv.encodeRun {s : State} (h : s.Inv) (hb : s.status.busy = true) (hp : s.phase = .eRun) :
    (encodeRun s).Inv := by
  have hcoh := h.running hb
  simp only [State.coherent, hp, Bool.and_eq_true, Bool.not_eq_true'] at hcoh
  obtain ⟨⟨-, hwait⟩, -⟩ := hcoh
  exact inv_endWith h.memories h.reserved hwait (fun _ => rfl) h.size h.uarea

/-! ### The sequencer -/

theorem State.Inv.act {s : State} (h : s.Inv) (hb : s.status.busy = true) : s.act.Inv := by
  cases hp : s.phase with
  | b3 | b4 | b5 | b6 | b7 =>
    have hmem := s.act_memoriesWf h.memories
    have hpast : s.phase.pastCheck = true := by rw [hp]; rfl
    rcases State.act_of_buildsImage (s := s) (by rw [hp]; rfl) with ⟨-, heq⟩ | ⟨m, c, drive, cbus, heq⟩
    · rw [heq]
      exact h.endWith hb (h.rdwWait_of_pastCheck hb hpast) _
    · exact h.imagePhase hb hpast (by simp [hp]) hmem ⟨_, _, _, _, _, _, _, by rw [hp]; rfl, heq⟩
  | idle => simpa only [State.act, hp] using h
  | bCheck => simpa only [State.act, hp] using h.buildCheck hb hp
  | b1 => simpa only [State.act, hp] using h.buildSize hb hp
  | b2 => simpa only [State.act, hp] using h.withVariant hb (by rw [hp]; rfl) (h.buildBudget hb hp)
  | b8 => simpa only [State.act, hp] using h.withVariant hb (by rw [hp]; rfl) (h.buildUser hb hp)
  | b9 => simpa only [State.act, hp] using h.seedChecksum hb hp
  | b10 => simpa only [State.act, hp] using h.buildResults hb hp
  | kLoop => simpa only [State.act, hp] using h.checksumStep hb hp
  | kWait => simpa only [State.act, hp] using h.waitStep hb hp
  | eRun => simpa only [State.act, hp] using h.encodeRun hb hp

theorem State.busy_of_canRun {s : State} (h : s.canRun = true) : s.status.busy = true := by
  simp only [State.canRun, Bool.and_eq_true] at h
  exact h.1

theorem State.Inv.tick {s : State} (h : s.Inv) (hb : s.status.busy = true) : s.tick.Inv := by
  unfold State.tick
  split
  · exact h.act hb
  · exact (h.withInputs _).act (s := s.countDown) hb

theorem State.Inv.run {s : State} (h : s.Inv) (n : Nat) : (s.run n).Inv :=
  State.run_induction (P := State.Inv) (fun _ ht hrun => ht.tick (State.busy_of_canRun hrun)) h n

/-! ### The inputs -/

/-- A host write changes only the bits that a field names (10_state.md R32). -/
theorem ConfigRegs.ReservedClear.write {c : ConfigRegs} {caps : Capacities} (h : c.ReservedClear caps) (w : Word)
    (t : BusTarget) : (c.write caps w t).ReservedClear caps := by
  have hclear (m : Word) : w &&& m &&& ~~~m = 0 := by
    ext i hi
    simp
  constructor
  · rw [ConfigRegs.write_desc]; split
    · exact hclear _
    · exact h.desc
  · rw [ConfigRegs.write_power]; split
    · exact hclear _
    · exact h.power
  · rw [ConfigRegs.write_chip]; split
    · exact hclear _
    · exact h.chip
  · rw [ConfigRegs.write_strLen]; split
    · exact hclear _
    · exact h.strLen
  · intro g
    rw [ConfigRegs.write_groups]; split
    · exact hclear _
    · exact h.groups g
  · intro i
    rw [ConfigRegs.write_chans]; split
    · exact hclear _
    · exact h.chans i
  · intro i
    rw [ConfigRegs.write_cbus]; split
    · exact hclear _
    · exact h.cbus i

theorem State.Inv.dropWrite {s : State} (h : s.Inv) : s.dropWrite.Inv :=
  h.withHostSide { s.hostSide with hostViol := true }

@[simp] theorem State.setRam_setRam (s : State) (r : RamId) (m n : Memory) : (s.setRam r m).setRam r n = s.setRam r n := by
  cases r <;> rfl

/-- A window write changes one RAM. -/
theorem State.putWindow_eq (s : State) (r : RamId) (k : Nat) (w : Word) : ∃ m, s.putWindow r k w = s.setRam r m := by
  simp only [State.putWindow, State.putRam, State.setRam_setRam]
  exact ⟨_, rfl⟩

/-- A RAM may be replaced by any other in canonical form. -/
theorem State.Inv.setRam {s : State} (h : s.Inv) (r : RamId) (m : Memory) (hmem : (s.setRam r m).memoriesWf = true) :
    (s.setRam r m).Inv := by
  cases r <;> exact ⟨hmem, h.reserved, h.running, h.idle, h.inReset, h.doneIdle, h.builtDone, h.errDone, h.size, h.waiting,
    h.budget, h.uarea⟩

theorem State.Inv.hostWrite {s : State} (h : s.Inv) (a : BusAddr) (w : Word) : (hostWrite a w s).Inv := by
  rcases hostWrite_cases a w s with ⟨-, heq⟩ | ⟨-, -, heq⟩ | ⟨-, hb, ⟨r, k, ht, heq⟩ | heq⟩ <;> rw [heq]
  · exact h
  · exact h.dropWrite
  · have hk := busTarget_window_inside a r k (State.busTarget_eq s a _ (by simp) ht)
    have hmem := State.memoriesWf_putWindow s r k w hk h.memories
    obtain ⟨m, hm⟩ := s.putWindow_eq r k w
    rw [hm] at hmem ⊢
    exact h.setRam r m hmem
  · obtain ⟨hidle, hreq, hwait⟩ := h.idle hb
    exact ⟨h.memories, h.reserved.write w _, fun hbusy => by simp [hb] at hbusy, h.idle, h.inReset, h.doneIdle, h.builtDone,
      h.errDone, h.size, fun hk => by simp [hidle] at hk, h.budget, h.uarea⟩

theorem State.Inv.hostRead {s : State} (h : s.Inv) (a : BusAddr) : (hostRead a s).Inv := by
  obtain ⟨w, n, heq⟩ := hostRead_frame a s
  rw [heq]
  exact h.withHostSide { s.hostSide with hostRdata := w, draws := n }

theorem ConfigRegs.reset_reservedClear (caps : Capacities) : ConfigRegs.reset.ReservedClear caps := by
  constructor
  · decide
  · decide
  · decide
  · decide
  · decide
  · decide
  · intro i
    have hzero : ConfigRegs.reset.cbus[i] = 0 := by revert i; decide
    simp [hzero]

/-- A register file at its reset values, RAMs in canonical form, meets the invariant. -/
theorem State.Inv.assertReset {s : State} (h : s.Inv) : (assertReset s).Inv where
  memories := by
    have hram := (State.memoriesWf_iff s).1 h.memories
    rw [State.memoriesWf_iff]
    intro r
    cases r with
    | strM => exact hram .strM
    | strP => exact hram .strP
    | strS => exact hram .strS
    | udb => exact hram .udb
    | img =>
      show Memory.wf (if s.status.busy = true then [] else s.img) = true
        ∧ Memory.within 256 (if s.status.busy = true then [] else s.img) = true
      split
      · decide
      · exact hram .img
  reserved := ConfigRegs.reset_reservedClear _
  running := fun h => by simp [Machine.assertReset, State.reset, Status.reset] at h
  idle := fun _ => ⟨rfl, rfl, rfl⟩
  inReset := fun _ => rfl
  doneIdle := fun _ => rfl
  builtDone := fun h => by simp [Machine.assertReset, State.reset, Status.reset] at h
  errDone := fun h => absurd rfl h
  size := .inl rfl
  waiting := fun h => by simp [Machine.assertReset, State.reset] at h
  budget := fun h => by simp [State.pastBudget, Machine.assertReset, State.reset, Status.reset] at h
  uarea := fun _ => Nat.zero_le 214

theorem State.Inv.resetInput {s : State} (h : s.Inv) (asserted : Bool) : (resetInput asserted s).Inv := by
  cases asserted
  · exact { h with inReset := fun hrst => by simp [Machine.resetInput] at hrst }
  · exact h.assertReset

theorem State.Inv.driveChipid {s : State} (h : s.Inv) (value : Byte) : (driveChipid value s).Inv :=
  h.withHostSide (Machine.driveChipid value s).hostSide

/-! ### A command is issued -/

/-- An accepted command that starts in a phase of its own meets the invariant. -/
theorem State.Inv.started {s t : State} (h : s.Inv) (hs : s.Ready) (w : Word) (hkept : (s.accept w).Untouched t)
    (hstatus : t.status = Status.accepted) (huarea : t.uarea = s.uarea) (hsize : t.imgSize = s.imgSize)
    (hmem : t.memoriesWf = true) (hcoh : t.coherent = true) (hphase : t.phase ≠ .kWait) (hpast : t.pastBudget = false) :
    t.Inv where
  memories := hmem
  reserved := by rw [hkept.cfg, hkept.params]; exact h.reserved
  running := fun _ => hcoh
  idle := fun hb => by simp [hstatus, Status.accepted] at hb
  inReset := fun hrst => by simp [hkept.rst, hs.rstLow] at hrst
  doneIdle := fun hd => by simp [hstatus, Status.accepted] at hd
  builtDone := fun hb => by simp [hstatus, Status.accepted] at hb
  errDone := fun he => by simp [hstatus, Status.accepted] at he
  size := hsize ▸ h.size
  waiting := fun hk => absurd hk hphase
  budget := fun hb => by simp [hpast] at hb
  uarea := by rw [hkept.params, huarea]; exact h.uarea

/-- CMDV of an ENCODE word. -/
theorem CmdV.ofWord_encode (var fn : Nibble) : CmdV.ofWord (encode (.encode var fn)) = ⟨opEncode, var, fn, false⟩ := by
  revert var fn
  decide

/-- A command that ends at acceptance meets the invariant. -/
theorem State.Inv.refused {s : State} (h : s.Inv) (hs : s.Ready) (w : Word) (code : ErrorCode) :
    ((s.accept w).endWith code).Inv := by
  obtain ⟨-, -, hwait⟩ := h.idle hs.notBusy
  exact inv_endWith h.memories h.reserved hwait (fun hb => by simp [Status.accepted] at hb) h.size h.uarea

theorem State.Inv.commandStart {s : State} (h : s.Inv) (hs : s.Ready) (i : Instr) :
    (commandStart i (s.accept (encode i))).Inv := by
  obtain ⟨-, hreq, hwait⟩ := h.idle hs.notBusy
  cases i with
  | build =>
    exact h.started hs (encode .build) (by constructor <;> rfl) rfl rfl rfl h.memories
      (by simp [Machine.commandStart, startBuild, State.coherent, CmdV.ofWord_build, hreq, hwait])
      (by simp [Machine.commandStart, startBuild]) (by simp [Machine.commandStart, startBuild, State.pastBudget])
  | encode var fn =>
    exact h.started hs (encode (.encode var fn)) (by constructor <;> rfl) rfl rfl rfl h.memories
      (by simp [Machine.commandStart, startEncode, State.coherent, CmdV.ofWord_encode, hreq, hwait])
      (by simp [Machine.commandStart, startEncode])
      (by simp [Machine.commandStart, startEncode, State.pastBudget, CmdV.ofWord_encode, opEncode, opBuild])
  | checksum var szb =>
    rcases startChecksum_cases (s.accept (encode (.checksum var szb))) with ⟨-, heq⟩ | ⟨v, hv, heq⟩ <;>
      rw [Machine.commandStart, heq]
    · exact h.refused hs _ _
    · rw [State.accept_cmdv, CmdV.ofWord_checksum] at hv
      refine h.started hs (encode (.checksum var szb)) (by constructor <;> rfl) rfl rfl rfl h.memories ?_ (by simp)
        (by simp [State.pastBudget, CmdV.ofWord_checksum, opChecksum, opBuild])
      refine (State.coherent_iff_of_kLoop rfl).2 ⟨.inr ?_, ?_, hwait, hreq⟩
      · simp [CmdV.ofWord_checksum]
      · simp [State.runCode, CmdV.ofWord_checksum, opChecksum, opBuild, hv]

theorem State.Inv.exec {s t : State} (h : s.Inv) (i : Instr) (hexec : exec i s = .next t) : t.Inv := by
  rcases exec_cases i s with ⟨-, heq⟩ | ⟨-, -, heq⟩ | ⟨-, -, -, heq⟩ | ⟨hs, heq⟩ <;> rw [heq] at hexec <;> cases hexec
  · exact h
  · exact h.dropWrite
  · exact (h.commandStart hs i).run seqFuel

theorem State.Inv.issueIllegal {s t : State} (h : s.Inv) (w : Word) (hissue : issueIllegal w s = .next t) : t.Inv := by
  unfold Machine.issueIllegal at hissue
  rcases issue_cases w (fun u => u.endWith .badCommand) s with ⟨-, heq⟩ | ⟨-, -, heq⟩ | ⟨-, -, -, heq⟩ | ⟨hs, heq⟩ <;>
    rw [heq] at hissue <;> cases hissue
  · exact h
  · exact h.dropWrite
  · exact (h.refused hs w _).run seqFuel

theorem State.Inv.arrive {s t : State} (h : s.Inv) (e : Input) (harrive : arrive e s = .next t) : t.Inv := by
  rcases arrive_cases e s with ⟨a, w, -, -, heq⟩ | ⟨a, w, -, -, heq⟩ | ⟨a, -, heq⟩ | ⟨b, -, heq⟩ | ⟨v, -, heq⟩
    | ⟨d, r, -, heq⟩ <;> rw [heq] at harrive
  · unfold writeCmd at harrive
    split at harrive
    · exact h.exec _ harrive
    · exact h.issueIllegal w harrive
  · cases harrive; exact h.hostWrite a w
  · cases harrive; exact h.hostRead a
  · cases harrive; exact h.resetInput b
  · cases harrive; exact h.driveChipid v
  · cases harrive; exact h

/-- Settles O50: the running command keeps the invariant step by step, and so does every input that lands. -/
theorem stepKeepsTheInvariant : Obligations.StepKeepsTheInvariant := by
  intro s t h hstep
  rcases step_cases s with ⟨-, -, heq⟩ | ⟨-, -, heq⟩ | ⟨-, -, heq⟩ | ⟨-, a, rest, -, heq⟩ <;> rw [heq] at hstep
  · cases hstep; exact h.run seqFuel
  · cases hstep
  · cases hstep; exact h
  · exact (h.withInputs rest).arrive a.input hstep

/-- Settles O49: at reset every RAM is empty, every register 0 and nothing runs. -/
theorem resetMeetsTheInvariant : Obligations.ResetMeetsTheInvariant where
  memories := State.reset_memoriesWf
  reserved := ConfigRegs.reset_reservedClear _
  running := fun h => by simp [State.reset, Status.reset] at h
  idle := fun _ => ⟨rfl, rfl, rfl⟩
  inReset := fun h => by simp [State.reset] at h
  doneIdle := fun _ => rfl
  builtDone := fun h => by simp [State.reset, Status.reset] at h
  errDone := fun h => absurd rfl h
  size := .inl rfl
  waiting := fun h => by simp [State.reset] at h
  budget := fun h => by simp [State.pastBudget, State.reset, Status.reset] at h
  uarea := fun _ => by decide

end Sys2Proof.Machine
end

section
/-! SUPPORT. Where BUILT comes from (10_state.md R37): step 10 of a BUILD, and nothing else. -/

namespace Sys2Proof.Machine

/-- The phases that only BUILD visits (10_state.md R58). -/
def Phase.ofBuild (p : Phase) : Bool := p == .bCheck || p.pastCheck

/-- The sequencer enters a phase of BUILD from another one, or from the loop of a BUILD. -/
theorem State.ofBuild_of_act {s : State} (h : s.act.phase.ofBuild = true) :
    s.phase.ofBuild = true ∨ s.cmdv.op = opBuild := by
  cases hp : s.phase with
  | idle => simp [State.act, hp, Phase.ofBuild, Phase.pastCheck] at h
  | kLoop =>
    simp only [State.act, hp] at h
    rcases s.checksumStep_cases with ⟨-, heq⟩ | ⟨-, -, -, -, heq⟩ | ⟨-, w, heq⟩ | ⟨-, heq⟩
    · simp [heq, hp, Phase.ofBuild, Phase.pastCheck] at h
    · simp [heq, Phase.ofBuild, Phase.pastCheck] at h
    · simp [heq, hp, Phase.ofBuild, Phase.pastCheck] at h
    · rcases s.finishChecksum_cases with ⟨hop, -⟩ | ⟨-, hend⟩
      · exact .inr hop
      · simp [heq, hend, Phase.ofBuild, Phase.pastCheck] at h
  | kWait =>
    simp only [State.act, hp] at h
    rcases s.waitStep_cases with ⟨k, data, err, rest, -, heq⟩ | ⟨-, heq⟩
    · simp [heq, State.takeAnswer_eq, Phase.ofBuild, Phase.pastCheck] at h
    · simp [heq, hp, Phase.ofBuild, Phase.pastCheck] at h
  | eRun => simp [State.act, hp, encodeRun, Phase.ofBuild, Phase.pastCheck] at h
  | _ => exact .inl rfl

theorem State.withVariant_built {s : State} {k : Variant → State → State}
    (h : ∀ v, (k v s).status.built = s.status.built) : (s.withVariant k).status.built = s.status.built := by
  rcases s.withVariant_cases k with ⟨-, heq⟩ | ⟨v, -, heq⟩ <;> rw [heq]
  · rfl
  · exact h v

/-- Only step 10 writes BUILT (40_build.md R204). -/
theorem State.act_built {s : State} (hp10 : s.phase ≠ .b10) : s.act.status.built = s.status.built := by
  cases hp : s.phase with
  | b3 | b4 | b5 | b6 | b7 =>
    rcases State.act_of_buildsImage (s := s) (by rw [hp]; rfl) with ⟨-, heq⟩ | ⟨m, c, drive, cbus, heq⟩ <;> rw [heq]
    rfl
  | idle => simp only [State.act, hp]
  | b9 | eRun =>
    simp only [State.act, hp]
    rfl
  | b10 => exact absurd hp hp10
  | bCheck =>
    simp only [State.act, hp]
    rcases buildCheck_cases s with ⟨code, -, heq⟩ | ⟨-, -, heq⟩ <;> rw [heq] <;> rfl
  | b1 =>
    simp only [State.act, hp]
    obtain ⟨id, n, heq⟩ := buildSize_frame s
    rw [heq]
  | b2 =>
    simp only [State.act, hp]
    refine State.withVariant_built fun v => ?_
    rw [buildBudget_eq]
    split <;> rfl
  | b8 =>
    simp only [State.act, hp]
    refine State.withVariant_built fun v => ?_
    obtain ⟨m, hcopy⟩ := (s.userWarnings v).copyUser_frame
    rcases buildUser_cases v s with ⟨-, heq⟩ | ⟨-, -, heq⟩ | ⟨-, -, heq⟩ <;> rw [heq]
    · rfl
    · rw [State.userWarnings_eq]; rfl
    · rw [hcopy, State.userWarnings_eq]; rfl
  | kLoop =>
    simp only [State.act, hp]
    rcases s.checksumStep_cases with ⟨-, heq⟩ | ⟨-, -, -, -, heq⟩ | ⟨-, w, heq⟩ | ⟨-, heq⟩ <;> rw [heq]
    · rfl
    · rfl
    · rcases s.finishChecksum_cases with ⟨-, hend⟩ | ⟨-, hend⟩ <;> rw [hend] <;> rfl
  | kWait =>
    simp only [State.act, hp]
    rcases s.waitStep_cases with ⟨k, data, err, rest, -, heq⟩ | ⟨-, heq⟩ <;> rw [heq]
    rw [State.takeAnswer_eq]

/-- BUILD's phases are BUILD's, and BUILT is 1 only after a BUILD ended normally. -/
structure State.BuiltSound (s : State) : Prop where
  phase : s.phase.ofBuild = true → s.cmdv.op = opBuild
  built : s.status.built = true →
    s.cmdv.op = opBuild ∧ s.status.err = .none ∧ s.status.done = true ∧ s.status.busy = false

theorem State.BuiltSound.act {s : State} (h : s.BuiltSound) (hb : s.status.busy = true) : s.act.BuiltSound where
  phase := fun hp => by
    rw [s.act_untouched.cmdv]
    rcases State.ofBuild_of_act hp with hp' | hop
    · exact h.phase hp'
    · exact hop
  built := fun hbuilt => by
    have hnot : s.status.built ≠ true := fun hs => by
      obtain ⟨-, -, -, hidle⟩ := h.built hs
      simp [hb] at hidle
    by_cases hp : s.phase = .b10
    · have hact : s.act = buildResults s := by simp only [State.act, hp]
      rw [hact]
      exact ⟨h.phase (by rw [hp]; rfl), rfl, rfl, rfl⟩
    · exact absurd ((State.act_built hp).symm.trans hbuilt) hnot

theorem State.BuiltSound.run {s : State} (h : s.BuiltSound) (n : Nat) : (s.run n).BuiltSound := by
  refine State.run_induction (P := State.BuiltSound) (fun t ht hrun => ?_) h n
  have hb := State.busy_of_canRun hrun
  unfold State.tick
  split
  · exact ht.act hb
  · exact State.BuiltSound.act (s := t.countDown) ⟨ht.phase, ht.built⟩ hb

/-- A running command in a coherent place is sound as long as BUILT is 0. -/
theorem State.builtSound_of_coherent {s : State} (hcoh : s.coherent = true) (hbuilt : s.status.built = false) :
    s.BuiltSound where
  phase := fun hp => by
    simp only [Phase.ofBuild, Bool.or_eq_true, beq_iff_eq] at hp
    rcases hp with hp | hp
    · simp only [State.coherent, hp, Bool.and_eq_true, beq_iff_eq] at hcoh
      obtain ⟨⟨hop, -⟩, -⟩ := hcoh
      exact hop
    · obtain ⟨hop, -⟩ := (State.coherent_iff_of_pastCheck hp).1 hcoh
      exact hop
  built := fun h => by simp [hbuilt] at h

/-- A command starts in a phase of BUILD only if it is BUILD, with BUILT = 0. -/
theorem builtSound_commandStart (i : Instr) (s : State) : (commandStart i (s.accept (encode i))).BuiltSound := by
  cases i with
  | build => exact ⟨fun _ => by simp [commandStart, startBuild, CmdV.ofWord_build], fun h => by cases h⟩
  | encode var fn => exact ⟨fun h => (by cases h), fun h => by cases h⟩
  | checksum var szb =>
    rcases startChecksum_cases (s.accept (encode (.checksum var szb))) with ⟨-, heq⟩ | ⟨v, -, heq⟩ <;>
      rw [commandStart, heq] <;> exact ⟨fun h => (by cases h), fun h => by cases h⟩

/-- The opcode of each command (30_encoding.md R132). -/
def commandOp : Instr → Nibble
  | .build => opBuild
  | .encode _ _ => opEncode
  | .checksum _ _ => opChecksum

theorem CmdV.op_ofWord_encode (i : Instr) : (CmdV.ofWord (encode i)).op = commandOp i := by
  cases i with
  | build => rw [CmdV.ofWord_build]; rfl
  | encode var fn => rw [CmdV.ofWord_encode]; rfl
  | checksum var szb => rw [CmdV.ofWord_checksum]; rfl

/-- Settles O57: BUILT comes from step 10 alone, only BUILD gets there, and step 10 ends it without an error. -/
theorem builtOnlyByBuild : Obligations.BuiltOnlyByBuild := by
  refine ⟨fun i s t hr hb hexec hbuilt => ?_, fun s t hrun hstep hs hbuilt => ?_⟩
  · rcases exec_cases i s with ⟨hr', -⟩ | ⟨-, hb', -⟩ | ⟨-, -, -, heq⟩ | ⟨-, heq⟩
    · simp [hr] at hr'
    · simp [hb] at hb'
    · simp [heq] at hexec
    · rw [heq] at hexec
      cases hexec
      obtain ⟨hop, herr, hdone, hbusy⟩ := ((builtSound_commandStart i s).run seqFuel).built hbuilt
      refine ⟨?_, herr, hdone, hbusy⟩
      rw [((commandStart_untouched i _).trans (State.run_untouched _ seqFuel)).cmdv, State.accept_cmdv,
        CmdV.op_ofWord_encode] at hop
      cases i with
      | build => rfl
      | encode var fn => simp [commandOp, opEncode, opBuild] at hop
      | checksum var szb => simp [commandOp, opChecksum, opBuild] at hop
  · obtain ⟨hcoh, rfl⟩ := step_of_canRun hrun hstep
    obtain ⟨hop, hend⟩ := ((State.builtSound_of_coherent hcoh hs).run seqFuel).built hbuilt
    exact ⟨(s.run_untouched seqFuel).cmdv ▸ hop, hend⟩

end Sys2Proof.Machine
end

section
/-! SUPPORT. Words of the host bus, bit by bit: the configuration registers' fields, STATUS, a window word, the reset
values (10_state.md R34, R45..R56, R66). -/

namespace Sys2Proof.Machine

/-! ### Fields of a word -/

theorem toNat_getLsbD {n : Nat} (w : BitVec n) (i : Nat) : (w.getLsbD i).toNat = w.toNat / 2 ^ i % 2 := by
  rw [BitVec.getLsbD, Nat.toNat_testBit]

theorem toNat_extractLsb' {n : Nat} (w : BitVec n) (lo len : Nat) :
    (w.extractLsb' lo len).toNat = w.toNat / 2 ^ lo % 2 ^ len := by
  rw [BitVec.extractLsb'_toNat, Nat.shiftRight_eq_div_pow]

theorem toNat_extractLsb'_zero {n : Nat} (w : BitVec n) (len : Nat) : (w.extractLsb' 0 len).toNat = w.toNat % 2 ^ len := by
  rw [toNat_extractLsb', Nat.pow_zero, Nat.div_one]

/-- Settles O26: every field is an extraction or a bit of its word. -/
theorem configurationFieldPositions : Obligations.ConfigurationFieldPositions := by
  intro c
  have hid := c.id.isLt
  have hchip := c.chip.isLt
  have hud := c.ud.isLt
  refine ⟨⟨toNat_extractLsb'_zero _ _, ?_⟩, ⟨toNat_extractLsb'_zero _ _, toNat_getLsbD _ _, toNat_getLsbD _ _,
    toNat_getLsbD _ _, toNat_getLsbD _ _, toNat_getLsbD _ _, toNat_getLsbD _ _⟩, toNat_extractLsb'_zero _ _,
    ⟨toNat_extractLsb'_zero _ _, toNat_getLsbD _ _, toNat_getLsbD _ _, ?_⟩,
    ⟨toNat_extractLsb'_zero _ _, toNat_extractLsb' _ _ _, toNat_extractLsb' _ _ _⟩, ⟨toNat_extractLsb'_zero _ _, ?_⟩,
    fun g => ?_, fun ch => ?_, fun i j => ?_⟩
  · rw [ConfigRegs.pid, toNat_extractLsb']
    omega
  · rw [ConfigRegs.cfgValid, toNat_getLsbD]
    omega
  · rw [ConfigRegs.udSize, toNat_extractLsb']
    omega
  · have hg : c.group g = c.groups[g] := by simp [ConfigRegs.group, Vector.getD]
    rw [ConfigRegs.drive, ConfigRegs.slowSlew, ConfigRegs.schmitt, hg]
    exact ⟨toNat_extractLsb'_zero _ _, toNat_getLsbD _ _, toNat_getLsbD _ _⟩
  · rw [channelWord_eq]
    exact ⟨toNat_extractLsb'_zero _ _, toNat_getLsbD _ _, toNat_getLsbD _ _, toNat_getLsbD _ _⟩
  · have hdiv : (4 * i.val + j.val) / 4 = i.val := by omega
    have hmod : (4 * i.val + j.val) % 4 = j.val := by omega
    have hi : c.cbus.getD i.val 0 = c.cbus[i] := by simp [Vector.getD]
    rw [ConfigRegs.cbusCode, hdiv, hmod, hi, toNat_extractLsb']

/-! ### STATUS -/

/-- The bits of the STATUS word (10_state.md R34). -/
theorem Status.getLsbD_toWord (t : Status) {i : Nat} (hi : i < 32) :
    t.toWord.getLsbD i =
      if i = 0 then t.busy else if i = 1 then t.done else if i = 2 then t.built
      else if 4 ≤ i ∧ i < 7 then t.err.code.getLsbD (i - 4)
      else if i = 8 then t.wDrive else if i = 9 then t.wCbus else if i = 10 then t.wUdStart else if i = 11 then t.wUdOvl
      else if i = 12 then t.wRdFail else if i = 16 then t.hostViol else false := by
  unfold Status.toWord
  change BitVec.getLsbD (w := 15 + 1 + 3 + 1 + 1 + 1 + 1 + 1 + 1 + 3 + 1 + 1 + 1 + 1) _ i = _
  simp only [BitVec.getLsbD_append, BitVec.getLsbD_zero, BitVec.getLsbD_ofBool]
  interval_cases i <;> simp

/-- Settles O44: the word's bits one by one. -/
theorem statusWordLayout : Obligations.StatusWordLayout := by
  refine ⟨by decide, ⟨rfl, rfl, rfl, rfl, rfl⟩, fun t => ?_⟩
  have hbit {i : Nat} (hi : i < 32) := t.getLsbD_toWord hi
  refine ⟨hbit (i := 0) (by decide), hbit (i := 1) (by decide), hbit (i := 2) (by decide), ?_, hbit (i := 8) (by decide),
    hbit (i := 9) (by decide), hbit (i := 10) (by decide), hbit (i := 11) (by decide), hbit (i := 12) (by decide),
    hbit (i := 16) (by decide), ?_⟩
  · refine BitVec.eq_of_getLsbD_eq fun i hi => ?_
    rw [BitVec.getLsbD_extractLsb', hbit (by omega)]
    interval_cases i <;> simp
  · refine BitVec.eq_of_getLsbD_eq fun i hi => ?_
    rw [BitVec.getLsbD_and, hbit hi]
    interval_cases i <;> simp

/-! ### A window word -/

theorem State.ramByte_putRam (s : State) (r q : RamId) (a b : Nat) (v : Byte) :
    (s.putRam r a v).ramByte q b = if q = r ∧ b = a then v else s.ramByte q b := by
  have hgen : (s.putRam r a v).ramGen q = s.ramGen q := by cases r <;> cases q <;> rfl
  unfold State.ramByte
  rw [hgen]
  by_cases hq : q = r
  · subst hq
    by_cases hb : b = a <;> simp [State.putRam, State.ram_setRam, Memory.read?_write, hb]
  · simp [State.putRam, State.ram_setRam, hq]

/-- A window write stores its four bytes, the lowest first, and no other byte of any RAM (20_memory.md R103). -/
theorem State.ramByte_putWindow (s : State) (r q : RamId) (k b : Nat) (w : Word) :
    (s.putWindow r k w).ramByte q b =
      if q = r ∧ 4 * k ≤ b ∧ b < 4 * k + 4 then w.extractLsb' (8 * (b - 4 * k)) 8 else s.ramByte q b := by
  simp only [State.putWindow, State.ramByte_putRam]
  by_cases hq : q = r
  · by_cases hb : 4 * k ≤ b ∧ b < 4 * k + 4
    · obtain ⟨j, rfl⟩ := Nat.exists_eq_add_of_le hb.1
      have hj : j < 4 := by omega
      interval_cases j <;> simp [hq]
    · have h0 : b ≠ 4 * k := by omega
      have h1 : b ≠ 4 * k + 1 := by omega
      have h2 : b ≠ 4 * k + 2 := by omega
      have h3 : b ≠ 4 * k + 3 := by omega
      simp only [hb, h0, h1, h2, h3, and_false, if_false]
  · simp [hq]

/-- Words with equal bytes are equal. -/
theorem eq_of_bytes_eq {u w : Word} (h : ∀ j < 4, u.extractLsb' (8 * j) 8 = w.extractLsb' (8 * j) 8) : u = w := by
  ext i hi
  have hbyte := congrArg (·.getLsbD (i % 8)) (h (i / 8) (by omega))
  simpa [BitVec.getLsbD_extractLsb', Nat.mod_lt, Nat.div_add_mod, BitVec.getLsbD_eq_getElem, hi] using hbyte

/-- A window write leaves everything but the RAM. -/
theorem State.putWindow_frame (s : State) (r : RamId) (k : Nat) (w : Word) :
    (s.putWindow r k w).cfg = s.cfg ∧ (s.putWindow r k w).status = s.status ∧ (s.putWindow r k w).cmd = s.cmd
      ∧ (s.putWindow r k w).rst = s.rst ∧ (s.putWindow r k w).params = s.params := by
  obtain ⟨m, hm⟩ := s.putWindow_eq r k w
  rw [hm]
  cases r <;> exact ⟨rfl, rfl, rfl, rfl, rfl⟩

/-- Settles O40: the window's address names the word, whose four bytes the write stores and a read puts together again. -/
theorem windowsStoreLittleEndian : Obligations.WindowsStoreLittleEndian := by
  intro s a w r k hr hb hfit ha hk
  have ht : s.busTarget a = .window r k :=
    State.busTarget_of_byteAddr? ((window_inside_iff r k).2 hk) (window_standsAt hfit hk) (congrArg some ha.symm)
  have hwrite : hostWrite a w s = s.putWindow r k w := by simp [hostWrite, hr, hb, ht]
  have hbytes : ∀ j < 4, (s.putWindow r k w).ramByte r (4 * k + j) = w.extractLsb' (8 * j) 8 := fun j hj => by
    rw [State.ramByte_putWindow, if_pos ⟨rfl, by omega⟩, Nat.add_sub_cancel_left]
  obtain ⟨hcfg, hstatus, hcmd, hrst, hparams⟩ := s.putWindow_frame r k w
  rw [hwrite]
  refine ⟨?_, hbytes, fun q b hqb => by rw [State.ramByte_putWindow, if_neg hqb], hcfg, hstatus, hcmd⟩
  rw [hostRdata_of_byteAddr? (.window r k) (hrst.trans hr) rfl ((window_inside_iff r k).2 hk)
    (hparams ▸ window_standsAt hfit hk) (fun _ => hstatus ▸ hb) ha]
  exact eq_of_bytes_eq fun j hj => ((s.putWindow r k w).extractLsb'_windowWord r k hj).trans (hbytes j hj)

/-! ### The reset values -/

/-- Settles O47: the reset state is a literal; every configuration register in it is 0, and every RAM empty. -/
theorem resetValues : Obligations.ResetValues := by
  refine ⟨rfl, by decide, rfl, rfl, rfl, rfl, fun a m h => ?_, fun r a => by cases r <;> rfl, rfl, rfl, rfl, rfl,
    rfl, rfl, rfl, rfl, rfl, rfl, rfl⟩
  have hm := fieldMask?_of_cfgWritable (s := State.reset) (by decide) h
  generalize State.reset.busTarget a = t at hm ⊢
  cases t with
  | group g => clear hm; revert g; decide
  | chan c => clear hm; revert c; decide
  | cbus i => clear hm; revert i; decide
  | cfgId | cfgDesc | cfgPower | cfgChip | cfgStrLen | cfgUd => rfl
  | _ => simp [BusTarget.fieldMask?] at hm

end Sys2Proof.Machine
end

section
/-! SUPPORT. Runs of the sequencer while the first input to come leaves it time (70_reset_and_hazards.md R360). -/

namespace Sys2Proof.Machine

/-- The inputs to come after `k` sequencer steps have passed. -/
def ageInputs (k : Nat) : List Arrival → List Arrival
  | [] => []
  | a :: rest => { a with after := a.after - k } :: rest

@[simp] theorem ageInputs_nil (k : Nat) : ageInputs k [] = [] := rfl

@[simp] theorem ageInputs_zero (l : List Arrival) : ageInputs 0 l = l := by cases l <;> rfl

theorem ageInputs_add (j k : Nat) (l : List Arrival) : ageInputs j (ageInputs k l) = ageInputs (k + j) l := by
  cases l <;> simp [ageInputs, Nat.sub_sub]

/-- No input lands within the next `k` sequencer steps. -/
def leavesSteps (k : Nat) (l : List Arrival) : Prop := ∀ a ∈ l.head?, k ≤ a.after

theorem leavesSteps_nil (k : Nat) : leavesSteps k [] := by simp [leavesSteps]

theorem leavesSteps.mono {j k : Nat} {l : List Arrival} (h : leavesSteps k l) (hjk : j ≤ k) : leavesSteps j l :=
  fun a ha => hjk.trans (h a ha)

theorem leavesSteps.age {j k : Nat} {l : List Arrival} (h : leavesSteps (k + j) l) : leavesSteps j (ageInputs k l) := by
  cases l with
  | nil => exact leavesSteps_nil j
  | cons a rest =>
    have ha := h a rfl
    intro b hb
    obtain rfl : { a with after := a.after - k } = b := by simpa [ageInputs] using hb
    show j ≤ a.after - k
    omega

/-- An answer leaves 99 steps before it lands. -/
theorem leavesSteps_answerInputs (answers : List (Half × Bool)) : leavesSteps 100 (answerInputs answers) := by
  cases answers with
  | nil => exact leavesSteps_nil 100
  | cons a rest =>
    intro b hb
    obtain rfl : (⟨100, .deviceAck a.1 a.2⟩ : Arrival) = b := by simpa [answerInputs] using hb
    exact Nat.le_refl 100

theorem State.countDown_eq (s : State) : s.countDown = { s with inputs := ageInputs 1 s.inputs } := by
  unfold State.countDown
  cases s.inputs <;> rfl

/-- A running command outside K_WAIT takes its next step where the inputs leave it one. -/
theorem State.run_step (s : State) {l : List Arrival} (n : Nat) (hb : s.status.busy = true) (hp : s.phase ≠ .kWait)
    (hl : leavesSteps 1 l) : { s with inputs := l }.run (n + 1) = { s.act with inputs := ageInputs 1 l }.run n := by
  have hdue : { s with inputs := l }.inputDue = false := by
    cases l with
    | nil => rfl
    | cons a rest =>
      have ha := hl a rfl
      show (a.after == 0) = false
      simp only [beq_eq_false_iff_ne]
      omega
  have hrun : { s with inputs := l }.canRun = true := by simp [State.canRun, hb, hp, hdue]
  rw [State.run_succ, if_pos hrun, State.tick, if_neg hp, State.countDown_eq]
  exact congrArg (State.run n) (s.act_inputs (ageInputs 1 l) hp)

/-- The same after `k` steps have passed. -/
theorem State.run_step_aged (s : State) {l : List Arrival} {k : Nat} (n : Nat) (hb : s.status.busy = true)
    (hp : s.phase ≠ .kWait) (hl : leavesSteps (k + 1) l) :
    { s with inputs := ageInputs k l }.run (n + 1) = { s.act with inputs := ageInputs (k + 1) l }.run n := by
  rw [State.run_step s n hb hp hl.age, ageInputs_add]

/-- A run that needs no input is the same while no input lands. -/
theorem State.run_of_leavesSteps {s : State} (hin : s.inputs = []) {l : List Arrival} (k n : Nat) (hl : leavesSteps k l)
    (hquiet : ∀ j < k, (s.run j).status.busy = true ∧ (s.run j).phase ≠ .kWait) :
    { s with inputs := l }.run (k + n) = { s.run k with inputs := ageInputs k l }.run n := by
  rw [State.run_add]
  congr 1
  induction k generalizing l with
  | zero => simp [State.run_zero]
  | succ k ih =>
    have hbefore := ih (hl.mono (Nat.le_succ k)) fun j hj => hquiet j (Nat.lt_succ_of_lt hj)
    have hempty : { s.run k with inputs := [] } = s.run k := by
      rw [← ageInputs_nil k, ← ih (leavesSteps_nil k) fun j hj => hquiet j (Nat.lt_succ_of_lt hj), ← hin]
    obtain ⟨hb, hp⟩ := hquiet k (Nat.lt_succ_self k)
    have hnext := State.run_step (s.run k) (l := []) 0 hb hp (leavesSteps_nil 1)
    rw [hempty] at hnext
    rw [State.run_add, hbefore, State.run_add s k 1]
    have hnext' := State.run_step_aged (s.run k) 0 hb hp hl
    rw [hnext', State.run_zero, hnext]
    rfl

/-- Plain folds while no input lands (42_checksum.md R264): `State.run_folds` with inputs to come. -/
theorem State.run_folds_aged (s : State) {l : List Arrival} (k i n : Nat) (hl : leavesSteps k l) (hb : s.status.busy = true)
    (hp : s.phase = .kLoop) (hk : i + k ≤ s.wordBound) (hw : s.wi = BitVec.ofNat 8 i)
    (hplain : ∀ j, i ≤ j → j < i + k → s.on230X = true →
      j ≠ s.params.tables.skipLo ∧ ¬(s.params.tables.liveLo ≤ j ∧ j < s.params.tables.liveHi)) :
    { s with inputs := l }.run (k + n) =
      { s with
        ck := foldFrom s.ck (s.imageWords i (i + k)), wi := BitVec.ofNat 8 (i + k), inputs := ageInputs k l }.run n := by
  have hfolds (j : Nat) (hj : j ≤ k) := State.run_folds { s with inputs := [] } j i 0 hb hp rfl
    (show i + j ≤ s.wordBound by omega) hw fun m h1 h2 => hplain m h1 (by omega)
  have hrun := State.run_of_leavesSteps (s := { s with inputs := [] }) rfl k n hl fun j hj => by
    have := hfolds j (by omega)
    rw [Nat.add_zero, State.run_zero] at this
    rw [this]
    exact ⟨hb, by simp [hp]⟩
  have hlast := hfolds k (Nat.le_refl k)
  rw [Nat.add_zero, State.run_zero] at hlast
  rw [hlast] at hrun
  exact hrun

/-- In K_WAIT with nothing to come the sequencer waits (70_reset_and_hazards.md R352). -/
theorem State.canRun_of_stuck {s : State} (hp : s.phase = .kWait) (hin : s.inputs = []) : s.canRun = false := by
  simp [State.canRun, hp, State.ackNext, hin]

theorem State.run_stuck {s : State} (hp : s.phase = .kWait) (hin : s.inputs = []) (n : Nat) : s.run n = s := by
  cases n with
  | zero => rfl
  | succ n => simp [State.run_succ, State.canRun_of_stuck hp hin]

theorem step_stuck {s : State} (hp : s.phase = .kWait) (hin : s.inputs = []) : step s = .next s := by
  simp [step, State.canRun_of_stuck hp hin, landInput, hin]

/-- In K_WAIT the answer that comes next is taken, whatever time it leaves (10_state.md R64). -/
theorem State.run_answer {s : State} {k : Nat} {data : Half} {err : Bool} {rest : List Arrival} (n : Nat)
    (hb : s.status.busy = true) (hp : s.phase = .kWait) (hin : s.inputs = ⟨k, .deviceAck data err⟩ :: rest) :
    s.run (n + 1) =
      { s with
        rdwReq := false, rdwWait := false, phase := .kLoop, wi := s.wi + 1
        ck := fold16 s.ck (liveWord s.params (data, err))
        status := { s.status with wRdFail := s.status.wRdFail || err }, inputs := rest }.run n := by
  have hrun : s.canRun = true := by simp [State.canRun, hb, hp, State.ackNext, hin]
  have hact : s.act = { s with inputs := rest }.takeAnswer data err := by simp only [State.act, hp, State.waitStep, hin]
  rw [State.run_succ, if_pos hrun, State.tick, if_pos hp, hact, State.takeAnswer_eq]
  rfl

end Sys2Proof.Machine
end

section
/-! SUPPORT. A BUILD that nothing ends early, from acceptance to the checksum (40_build.md R170..R202). -/

namespace Sys2Proof.Machine

/-! ### The phases one after another -/

/-- A running BUILD stands in phase `p`, its variant known. -/
structure State.StandsIn (t : State) (p : Phase) (v : Variant) : Prop where
  phase : t.phase = p
  busy : t.status.busy = true
  variant : Variant.ofCode? t.cfg.variantCode = some v

theorem State.withVariant_of_known {t : State} {v : Variant} (hv : Variant.ofCode? t.cfg.variantCode = some v)
    (k : Variant → State → State) : t.withVariant k = k v t := by
  simp [State.withVariant, hv]

/-- The sequencer takes the step of its phase, where no input lands first. -/
theorem State.StandsIn.run_step {t u : State} {p : Phase} {v : Variant} (h : t.StandsIn p v) (hp : p ≠ .kWait)
    (hact : t.act = u) {l : List Arrival} {k : Nat} (n : Nat) (hl : leavesSteps (k + 1) l) :
    { t with inputs := ageInputs k l }.run (n + 1) = { u with inputs := ageInputs (k + 1) l }.run n := by
  rw [State.run_step_aged t n h.busy (h.phase ▸ hp) hl, hact]

/-- A step of the phases B2..B8 runs with the variant in which BUILD stands. -/
theorem State.StandsIn.act_eq {t : State} {p : Phase} {v : Variant} (h : t.StandsIn p v) {k : Variant → State → State}
    (hact : t.act = t.withVariant k) : t.act = k v t :=
  hact.trans (State.withVariant_of_known h.variant k)

/-- After a step that builds the image, the same BUILD stands in the next phase. -/
theorem State.StandsIn.next {t u : State} {p : Phase} {v : Variant} (h : t.StandsIn p v) (hp : p.buildsImage = true)
    (hact : t.act = u) : u.StandsIn p.next v := by
  obtain ⟨rfl, hb, hv⟩ := h
  subst hact
  rcases State.act_of_buildsImage hp with ⟨hnone, -⟩ | ⟨m, c, drive, cbus, heq⟩
  · simp [hv] at hnone
  · rw [heq]
    exact ⟨rfl, hb, hv⟩

/-! ### A BUILD that passes its checks -/

/-- The state after step 2 of a BUILD that passes its checks. -/
def State.budgeted (s : State) (v : Variant) : State :=
  { s.accept (encode .build) with
    chipid := s.devChipid, sz := s.buildSize, ua := userArea s.params v s.cfg, phase := .b3 }

/-- The state after step 6: the fixed fields and the string table stand. -/
def State.tableBuilt (s : State) (v : Variant) : State :=
  buildPnp v (buildStrings v (buildFixed v (buildZero v (s.budgeted v))))

/-- The state after step 8: the image but for its trailer. -/
def State.imageBuilt (s : State) (v : Variant) : State := buildUser v (buildChip v (s.tableBuilt v))

theorem State.BuildPasses.budgeted_standsIn {s : State} {v : Variant} (h : s.BuildPasses v) :
    (s.budgeted v).StandsIn .b3 v :=
  ⟨rfl, rfl, h.variant⟩

/-- B_CHECK and the steps 1 and 2 (40_build.md R170..R174). -/
theorem State.BuildPasses.run_budgeted {s : State} {v : Variant} (h : s.BuildPasses v) (n : Nat)
    (hl : leavesSteps 3 s.inputs) :
    (startBuild (s.accept (encode .build))).run (n + 3) = { s.budgeted v with inputs := ageInputs 3 s.inputs }.run n := by
  have hstart : (startBuild (s.accept (encode .build))).StandsIn .bCheck v := ⟨rfl, rfl, h.variant⟩
  have hcheck : (startBuild (s.accept (encode .build))).act = (s.accept (encode .build)).goto .b1 := by
    show buildCheck _ = _
    simp only [buildCheck, startBuild, State.goto_cfg, State.accept_cfg, h.valid, h.variant]
    rfl
  have hb1 : ((s.accept (encode .build)).goto .b1).StandsIn .b1 v := ⟨rfl, rfl, h.variant⟩
  have hsize : ((s.accept (encode .build)).goto .b1).act =
      { s.accept (encode .build) with chipid := s.devChipid, sz := s.buildSize, phase := .b2 } := rfl
  have hb2 : { s.accept (encode .build) with chipid := s.devChipid, sz := s.buildSize, phase := .b2 }.StandsIn .b2 v :=
    ⟨rfl, rfl, h.variant⟩
  have hbudget : { s.accept (encode .build) with chipid := s.devChipid, sz := s.buildSize, phase := .b2 }.act
      = s.budgeted v := by
    rw [hb2.act_eq rfl, buildBudget_eq]
    exact if_neg (Int.not_lt.2 h.budget)
  calc (startBuild (s.accept (encode .build))).run (n + 3)
      = { startBuild (s.accept (encode .build)) with inputs := ageInputs 0 s.inputs }.run (n + 3) := by
        rw [ageInputs_zero]; rfl
    _ = _ := hstart.run_step (by decide) hcheck (n + 2) (hl.mono (by decide))
    _ = _ := hb1.run_step (by decide) hsize (n + 1) (hl.mono (by decide))
    _ = _ := hb2.run_step (by decide) hbudget n hl

/-- The steps 3..8 (40_build.md R175..R202). -/
theorem State.BuildPasses.run_imageBuilt {s : State} {v : Variant} (h : s.BuildPasses v) (n : Nat)
    (hl : leavesSteps 9 s.inputs) :
    (startBuild (s.accept (encode .build))).run (n + 9) = { s.imageBuilt v with inputs := ageInputs 9 s.inputs }.run n := by
  have hb3 := h.budgeted_standsIn
  have hzero : (s.budgeted v).act = buildZero v (s.budgeted v) := hb3.act_eq (by simp only [State.act, hb3.phase])
  have hb4 : (buildZero v (s.budgeted v)).StandsIn .b4 v := hb3.next rfl hzero
  have hfixed : State.act _ = buildFixed v _ := hb4.act_eq (by simp only [State.act, hb4.phase])
  have hb5 : (buildFixed v _).StandsIn .b5 v := hb4.next rfl hfixed
  have hstrings : State.act _ = buildStrings v _ := hb5.act_eq (by simp only [State.act, hb5.phase])
  have hb6 : (buildStrings v _).StandsIn .b6 v := hb5.next rfl hstrings
  have hpnp : State.act _ = buildPnp v _ := hb6.act_eq (by simp only [State.act, hb6.phase])
  have hb7 : (buildPnp v _).StandsIn .b7 v := hb6.next rfl hpnp
  have hchip : State.act _ = buildChip v _ := hb7.act_eq (by simp only [State.act, hb7.phase])
  have hb8 : (buildChip v _).StandsIn .b8 v := hb7.next rfl hchip
  have huser : State.act _ = buildUser v _ := hb8.act_eq (by simp only [State.act, hb8.phase])
  calc (startBuild (s.accept (encode .build))).run (n + 9)
      = { s.budgeted v with inputs := ageInputs 3 s.inputs }.run (n + 6) := h.run_budgeted (n + 6) (hl.mono (by decide))
    _ = _ := hb3.run_step (by decide) hzero (n + 5) (hl.mono (by decide))
    _ = _ := hb4.run_step (by decide) hfixed (n + 4) (hl.mono (by decide))
    _ = _ := hb5.run_step (by decide) hstrings (n + 3) (hl.mono (by decide))
    _ = _ := hb6.run_step (by decide) hpnp (n + 2) (hl.mono (by decide))
    _ = _ := hb7.run_step (by decide) hchip (n + 1) (hl.mono (by decide))
    _ = _ := hb8.run_step (by decide) huser n hl

/-- The steps 3..6 change IMG and leave the raw cursor past the table (40_build.md R175..R185). -/
theorem State.tableBuilt_frame (s : State) (v : Variant) :
    ∃ m, s.tableBuilt v =
      { s.budgeted v with
        img := m, phase := .b7, cur := s.params.strStart v + BitVec.ofNat 16 (tableLength v s.cfg) } := by
  obtain ⟨m3, h3⟩ := buildZero_frame v (s.budgeted v)
  obtain ⟨m4, h4⟩ := buildFixed_frame v (buildZero v (s.budgeted v))
  obtain ⟨m5, h5⟩ := buildStrings_frame v (buildFixed v (buildZero v (s.budgeted v)))
  obtain ⟨m6, h6⟩ := buildPnp_frame v (buildStrings v (buildFixed v (buildZero v (s.budgeted v))))
  have hcur : s.params.strStart v + BitVec.ofNat 16 (tableLength v s.cfg) =
      s.params.strStart v + BitVec.ofNat 16 (2 * s.cfg.totalLen + 6) + BitVec.ofNat 16 (if hasPnp v then 3 else 0) := by
    rw [tableLength, BitVec.ofNat_add (2 * s.cfg.totalLen + 6), BitVec.add_assoc]
  refine ⟨m6, ?_⟩
  rw [State.tableBuilt, h6, h5, h4, h3, hcur]
  rfl

/-- Step 7 changes IMG and two warnings (40_build.md R186..R197). -/
theorem State.chipBuilt_frame (s : State) (v : Variant) :
    ∃ m, buildChip v (s.tableBuilt v) =
      { s.budgeted v with
        img := m, phase := .b8, cur := s.params.strStart v + BitVec.ofNat 16 (tableLength v s.cfg)
        status :=
          { Status.accepted with
            wDrive := (List.range (s.params.nGroups v)).any fun g => decide (3 < (s.cfg.drive g).toNat)
            wCbus := (s.params.variant v).cbusSlots.zipIdx.any fun p =>
              decide ((s.params.variant v).cbusMax < (s.cfg.cbusCode p.2).toNat) } } := by
  obtain ⟨m6, h6⟩ := s.tableBuilt_frame v
  obtain ⟨m7, h7⟩ := buildChip_frame v (s.tableBuilt v)
  refine ⟨m7, h7.trans ?_⟩
  rw [h6]
  rfl

/-- The steps 3..8 change IMG, CUR and four warnings, where the user data fits (40_build.md R175..R202). -/
theorem State.BuildPasses.imageBuilt_frame {s : State} {v : Variant} (h : s.BuildPasses v) :
    ∃ m, s.imageBuilt v =
      { s.budgeted v with
        img := m, phase := .b9, cur := s.params.strStart v + BitVec.ofNat 16 (tableLength v s.cfg)
        status :=
          { Status.accepted with
            wDrive := (List.range (s.params.nGroups v)).any fun g => decide (3 < (s.cfg.drive g).toNat)
            wCbus := (s.params.variant v).cbusSlots.zipIdx.any fun p =>
              decide ((s.params.variant v).cbusMax < (s.cfg.cbusCode p.2).toNat)
            wUdStart := decide (s.cfg.udSize ≠ 0) && decide (s.cfg.udOffset < (s.params.variant v).freeStart)
            wUdOvl := decide (s.cfg.udSize ≠ 0)
              && decide ((s.params.strStart v).toNat ≤ s.cfg.udOffset + s.cfg.udSize) } } := by
  obtain ⟨m7, h7⟩ := s.chipBuilt_frame v
  obtain ⟨m8, h8⟩ := ((buildChip v (s.tableBuilt v)).userWarnings v).copyUser_frame
  have hcfg : (buildChip v (s.tableBuilt v)).cfg = s.cfg := by rw [h7]; rfl
  have hsz : (buildChip v (s.tableBuilt v)).sz = s.buildSize := by rw [h7]; rfl
  have hcases := buildUser_cases v (buildChip v (s.tableBuilt v))
  rw [hcfg, hsz] at hcases
  rcases hcases with ⟨h0, heq⟩ | ⟨h0, hlarge, -⟩ | ⟨h0, -, heq⟩
  · refine ⟨m7, ?_⟩
    simp only [h0, ne_eq, not_true_eq_false, decide_false, Bool.false_and]
    rw [State.imageBuilt, heq, h7]
    rfl
  · rcases h.userFits with hfit | hfit
    · exact absurd hfit h0
    · omega
  · refine ⟨m8, ?_⟩
    simp only [h0, ne_eq, not_false_eq_true, decide_true, Bool.true_and]
    rw [State.imageBuilt, heq, h8, State.userWarnings_eq, h7]
    rfl

/-- Step 9 seeds the checksum (42_checksum.md R261). -/
theorem State.BuildPasses.run_seeded {s : State} {v : Variant} (h : s.BuildPasses v) (n : Nat)
    (hl : leavesSteps 10 s.inputs) :
    (startBuild (s.accept (encode .build))).run (n + 10) =
      { (s.imageBuilt v).seedChecksum with inputs := ageInputs 10 s.inputs }.run n := by
  obtain ⟨m, himage⟩ := h.imageBuilt_frame
  have hb9 : (s.imageBuilt v).StandsIn .b9 v := by
    rw [himage]
    exact ⟨rfl, rfl, h.variant⟩
  calc (startBuild (s.accept (encode .build))).run (n + 10)
      = { s.imageBuilt v with inputs := ageInputs 9 s.inputs }.run (n + 1) := h.run_imageBuilt (n + 1) (hl.mono (by decide))
    _ = _ := hb9.run_step (by decide) (by simp only [State.act, hb9.phase]) n hl

/-! ### The raw cursor -/

/-- The phases from step 9 on, and idle. -/
def Phase.pastImage : Phase → Bool
  | .idle | .b9 | .b10 | .kLoop | .kWait => true
  | _ => false

/-- From step 9 on no step moves the raw cursor. -/
theorem State.act_cur_of_pastImage {s : State} (h : s.phase.pastImage = true) :
    s.act.phase.pastImage = true ∧ s.act.cur = s.cur := by
  cases hp : s.phase with
  | idle => simp [State.act, hp, Phase.pastImage]
  | b9 => simp [State.act, hp, Phase.pastImage]
  | b10 => simp [State.act, hp, buildResults, Phase.pastImage]
  | kLoop =>
    simp only [State.act, hp]
    rcases s.checksumStep_cases with ⟨-, heq⟩ | ⟨-, -, -, -, heq⟩ | ⟨-, w, heq⟩ | ⟨-, heq⟩ <;> rw [heq]
    · exact ⟨h, rfl⟩
    · exact ⟨rfl, rfl⟩
    · exact ⟨h, rfl⟩
    · rcases s.finishChecksum_cases with ⟨-, hend⟩ | ⟨-, hend⟩ <;> rw [hend] <;> exact ⟨rfl, rfl⟩
  | kWait =>
    simp only [State.act, hp]
    rcases s.waitStep_cases with ⟨k, data, err, rest, -, heq⟩ | ⟨-, heq⟩ <;> rw [heq]
    · rw [State.takeAnswer_eq]; exact ⟨rfl, rfl⟩
    · exact ⟨h, rfl⟩
  | _ => simp [hp, Phase.pastImage] at h

theorem State.run_cur_of_pastImage {s : State} (h : s.phase.pastImage = true) (n : Nat) : (s.run n).cur = s.cur := by
  refine (State.run_induction (P := fun t => t.phase.pastImage = true ∧ t.cur = s.cur) (fun t ht _ => ?_) ⟨h, rfl⟩ n).2
  unfold State.tick
  split
  · exact ⟨(State.act_cur_of_pastImage ht.1).1, (State.act_cur_of_pastImage ht.1).2.trans ht.2⟩
  · have hact := State.act_cur_of_pastImage (s := t.countDown) ht.1
    exact ⟨hact.1, hact.2.trans ht.2⟩

/-- The table of strings within the budget ends at most at 0x179 (10_state.md R60; 40_build.md R184). -/
theorem State.BuildPasses.tableEnd_le {s : State} {v : Variant} (h : s.BuildPasses v) :
    (s.params.strStart v).toNat + tableLength v s.cfg ≤ 0x179 := by
  have hbudget := h.budget
  simp only [userArea, Params.base, h.standard] at hbudget
  simp only [tableLength, ConfigRegs.totalLen, Params.strStart, h.standard]
  cases v <;> simp [SourceTables.standard, PerVariant.get, hasPnp] at hbudget ⊢ <;> omega

/-- Settles O32: steps 5 and 6 leave the cursor past the table, and the checksum and step 10 do not move it. -/
theorem cursorEndsPastTheTable : Obligations.CursorEndsPastTheTable := by
  intro s v answers h
  have hle := h.toBuildPasses.tableEnd_le
  have hl : leavesSteps 9 s.inputs := h.inputs ▸ (leavesSteps_answerInputs answers).mono (by decide)
  obtain ⟨m, himage⟩ := h.toBuildPasses.imageBuilt_frame
  have hphase : (s.imageBuilt v).phase.pastImage = true := by rw [himage]; rfl
  have hcur : (((startBuild (s.accept (encode .build))).run seqFuel).cur).toNat
      = (s.params.strStart v).toNat + tableLength v s.cfg := by
    rw [show seqFuel = 291 + 9 from rfl, h.toBuildPasses.run_imageBuilt 291 hl,
      State.run_cur_of_pastImage (s := { s.imageBuilt v with inputs := ageInputs 9 s.inputs }) hphase]
    show (s.imageBuilt v).cur.toNat = _
    rw [himage]
    simp only [BitVec.toNat_add, BitVec.toNat_ofNat]
    omega
  exact ⟨_, exec_of_ready .build h.ready, hcur, hcur ▸ hle⟩

end Sys2Proof.Machine
end

section
/-! SUPPORT. The checksum of 230X at 256 bytes: the words before the jump, the sixteen device reads, the words after them
(42_checksum.md R263..R267; 10_state.md R64). -/

namespace Sys2Proof.Machine

/-- A command runs the checksum loop on 230X at 256 bytes, with the default tables. -/
structure State.ReadsDevice (s : State) : Prop where
  busy : s.status.busy = true
  phase : s.phase = .kLoop
  on230X : s.on230X = true
  size : s.sz = .b256
  standard : s.params.tables = SourceTables.standard

theorem State.ReadsDevice.wordBound {s : State} (h : s.ReadsDevice) : s.wordBound = 0x7F := by
  simp [State.wordBound, h.size, ImgSize.bytes]

theorem State.ReadsDevice.phase_ne_kWait {s : State} (h : s.ReadsDevice) : s.phase ≠ .kWait := by
  rw [h.phase]
  decide

/-- At 0x12 the loop jumps over the skipped words (42_checksum.md R265). -/
theorem State.ReadsDevice.act_jump {s : State} (h : s.ReadsDevice) (hwi : s.wi = 0x12) :
    s.act = { s with wi := 0x40 } := by
  have hbound : s.wi.toNat < s.wordBound := by
    rw [h.wordBound, hwi]
    decide
  have hskip : (s.on230X && s.wi.toNat == s.params.tables.skipLo) = true := by
    rw [h.on230X, h.standard, hwi]
    rfl
  simp only [State.act, h.phase, State.checksumStep]
  rw [if_pos hbound, if_pos hskip, h.standard, ← h.phase]
  rfl

/-- The words 0x00..0x11, then the jump to the first device read (42_checksum.md R265). -/
theorem State.ReadsDevice.run_to_reads {s : State} (h : s.ReadsDevice) (hwi : s.wi = 0) {l : List Arrival} (n : Nat)
    (hl : leavesSteps 19 l) :
    { s with inputs := l }.run (n + 19) =
      { s with ck := foldFrom s.ck (s.imageWords 0 0x12), wi := 0x40, inputs := ageInputs 19 l }.run n := by
  have hfolds := State.run_folds_aged s 18 0 (n + 1) (hl.mono (by decide)) h.busy h.phase (by rw [h.wordBound]; decide) hwi
    fun j _ hj _ => by simp only [h.standard, SourceTables.standard]; omega
  have hjump : { s with ck := foldFrom s.ck (s.imageWords 0 0x12), wi := 0x12 }.ReadsDevice :=
    ⟨h.busy, h.phase, h.on230X, h.size, h.standard⟩
  have hstep := State.run_step_aged _ (k := 18) n hjump.busy hjump.phase_ne_kWait hl
  rw [hjump.act_jump rfl] at hstep
  rw [show n + 19 = 18 + (n + 1) by omega, hfolds]
  exact hstep

/-- At the index of a device read the loop makes the request (42_checksum.md R266). -/
theorem State.ReadsDevice.act_live {s : State} (h : s.ReadsDevice) (hlo : 0x40 ≤ s.wi.toNat) (hhi : s.wi.toNat < 0x50) :
    s.act = s.requestWord := by
  have hbound : s.wi.toNat < s.wordBound := by
    rw [h.wordBound]
    omega
  have hskip : ¬(s.on230X && s.wi.toNat == s.params.tables.skipLo) = true := by
    simp only [h.standard, SourceTables.standard, Bool.and_eq_true, beq_iff_eq]
    omega
  have hlive : (s.on230X && (s.params.tables.liveLo ≤ s.wi.toNat && s.wi.toNat < s.params.tables.liveHi)) = true := by
    simp [h.on230X, h.standard, SourceTables.standard, hlo, hhi]
  simp only [State.act, h.phase, State.checksumStep]
  rw [if_pos hbound, if_neg hskip, if_pos hlive]

/-- One device read with its answer next: two steps, and one word folded (42_checksum.md R266, R267). -/
theorem State.ReadsDevice.run_read {s : State} (h : s.ReadsDevice) (hlo : 0x40 ≤ s.wi.toNat) (hhi : s.wi.toNat < 0x50)
    (answer : Half × Bool) (rest : List Arrival) {k : Nat} (n : Nat) (hk : k < 100) :
    { s with inputs := ageInputs k (⟨100, .deviceAck answer.1 answer.2⟩ :: rest) }.run (n + 2) =
      { s with
        ck := fold16 s.ck (liveWord s.params answer), wi := s.wi + 1
        status := { s.status with wRdFail := s.status.wRdFail || answer.2 }
        rdwReq := false, rdwWait := false, rdwIdx := s.wi, inputs := rest }.run n := by
  have hleaves : leavesSteps (k + 1) (⟨100, .deviceAck answer.1 answer.2⟩ :: rest) := by
    intro b hb
    obtain rfl : (⟨100, .deviceAck answer.1 answer.2⟩ : Arrival) = b := by simpa using hb
    exact hk
  rw [State.run_step_aged s (n + 1) h.busy h.phase_ne_kWait hleaves, h.act_live hlo hhi]
  refine (State.run_answer (s := { s.requestWord with inputs := ageInputs (k + 1) _ }) n h.busy rfl rfl).trans ?_
  rw [← h.phase]
  rfl

/-- The state after reads that `answers` answer, from the index at which `s` stands. -/
def State.afterReads (s : State) (answers : List (Half × Bool)) : State :=
  { s with
    ck := foldFrom s.ck (answers.map (liveWord s.params)), wi := s.wi + BitVec.ofNat 8 answers.length
    status := { s.status with wRdFail := s.status.wRdFail || answers.any (·.2) }
    rdwReq := if answers = [] then s.rdwReq else false
    rdwWait := if answers = [] then s.rdwWait else false
    rdwIdx := if answers = [] then s.rdwIdx else s.wi + BitVec.ofNat 8 answers.length - 1
    inputs := [] }

theorem State.afterReads_nil (s : State) : s.afterReads [] = { s with inputs := [] } := by simp [State.afterReads, foldFrom]

theorem foldFrom_single (seed w : Half) : foldFrom seed [w] = fold16 seed w := foldFrom_cons seed w []

theorem State.afterReads_single (s : State) (a : Half × Bool) :
    s.afterReads [a] =
      { s with
        ck := fold16 s.ck (liveWord s.params a), wi := s.wi + 1
        status := { s.status with wRdFail := s.status.wRdFail || a.2 }
        rdwReq := false, rdwWait := false, rdwIdx := s.wi, inputs := [] } := by
  simp [State.afterReads, foldFrom_single]

theorem State.afterReads_cons (s : State) (a : Half × Bool) (rest : List (Half × Bool)) :
    (s.afterReads [a]).afterReads rest = s.afterReads (a :: rest) := by
  have hwi : s.wi + 1 + BitVec.ofNat 8 rest.length = s.wi + BitVec.ofNat 8 (a :: rest).length := by
    rw [List.length_cons, Nat.add_comm rest.length, BitVec.ofNat_add, BitVec.add_assoc]
    rfl
  have hck : foldFrom (fold16 s.ck (liveWord s.params a)) (rest.map (liveWord s.params))
      = foldFrom s.ck ((a :: rest).map (liveWord s.params)) := (foldFrom_cons ..).symm
  rw [State.afterReads_single]
  unfold State.afterReads
  simp only [hwi, hck, List.any_cons, Bool.or_assoc, if_neg (List.cons_ne_nil a rest)]
  cases rest with
  | nil => simp
  | cons b rest => rfl

theorem State.ReadsDevice.afterReads {s : State} (h : s.ReadsDevice) (answers : List (Half × Bool)) :
    (s.afterReads answers).ReadsDevice :=
  ⟨h.busy, h.phase, h.on230X, h.size, h.standard⟩

/-- Device reads that are all answered: two steps each (42_checksum.md R267). -/
theorem State.ReadsDevice.run_reads {s : State} (h : s.ReadsDevice) (answers : List (Half × Bool)) {k : Nat} (n : Nat)
    (hk : k < 100) (hlo : 0x40 ≤ s.wi.toNat) (hhi : s.wi.toNat + answers.length ≤ 0x50) :
    { s with inputs := ageInputs k (answerInputs answers) }.run (n + 2 * answers.length) =
      (s.afterReads answers).run n := by
  induction answers generalizing s k with
  | nil =>
    rw [State.afterReads_nil]
    rfl
  | cons a rest ih =>
    rw [List.length_cons] at hhi
    have hread := h.run_read hlo (by omega) a (answerInputs rest) (n + 2 * rest.length) hk
    have hnext : (s.afterReads [a]).ReadsDevice := h.afterReads [a]
    have hwi : (s.afterReads [a]).wi.toNat = s.wi.toNat + 1 := by
      show (s.wi + 1).toNat = _
      rw [BitVec.toNat_add]
      show (s.wi.toNat + 1) % 256 = _
      omega
    have hrest := ih hnext (k := 0) (by decide) (by omega) (by omega)
    rw [ageInputs_zero] at hrest
    refine hread.trans (Eq.trans ?_ (hrest.trans ?_))
    · rw [State.afterReads_single]
    · rw [State.afterReads_cons]

/-! ### Reads that are never answered -/

/-- The loop at its first device read. -/
def State.atReads (s : State) : State := { s with ck := foldFrom s.ck (s.imageWords 0 0x12), wi := 0x40 }

theorem State.ReadsDevice.atReads {s : State} (h : s.ReadsDevice) : s.atReads.ReadsDevice :=
  ⟨h.busy, h.phase, h.on230X, h.size, h.standard⟩

/-- With fewer than sixteen answers to come, the loop makes the request for the first unanswered word and waits. -/
theorem State.ReadsDevice.run_unanswered {s : State} (h : s.ReadsDevice) (hwi : s.wi = 0) {answers : List (Half × Bool)}
    (hlen : answers.length < 16) {k n : Nat} (hk : k ≤ 80) (hn : 50 ≤ n) :
    { s with inputs := ageInputs k (answerInputs answers) }.run n = (s.atReads.afterReads answers).requestWord := by
  obtain ⟨j, rfl⟩ : ∃ j, n = j + 1 + 2 * answers.length + 19 := ⟨n - 20 - 2 * answers.length, by omega⟩
  have hreads := h.atReads.run_reads answers (k := k + 19) (j + 1) (by omega) (Nat.le_refl 0x40)
    (show 0x40 + answers.length ≤ 0x50 by omega)
  have hlast := h.atReads.afterReads answers
  have hwilast : (s.atReads.afterReads answers).wi.toNat = 0x40 + answers.length := by
    show ((0x40 : Byte) + BitVec.ofNat 8 answers.length).toNat = _
    rw [BitVec.toNat_add, BitVec.toNat_ofNat]
    show (0x40 + answers.length % 256) % 256 = _
    omega
  have hrequest := State.run_step (s.atReads.afterReads answers) (l := []) j hlast.busy hlast.phase_ne_kWait
    (leavesSteps_nil 1)
  rw [hlast.act_live (by omega) (by omega)] at hrequest
  calc { s with inputs := ageInputs k (answerInputs answers) }.run (j + 1 + 2 * answers.length + 19)
      = { s.atReads with inputs := ageInputs (k + 19) (answerInputs answers) }.run (j + 1 + 2 * answers.length) := by
        rw [h.run_to_reads hwi _ (((leavesSteps_answerInputs answers).mono (by omega)).age), ageInputs_add]
        rfl
    _ = (s.atReads.afterReads answers).run (j + 1) := hreads
    _ = (s.atReads.afterReads answers).requestWord.run j := hrequest
    _ = (s.atReads.afterReads answers).requestWord := State.run_stuck rfl rfl j

/-- There it waits for ever, DONE low and W_RDFAIL as the answers left it (70_reset_and_hazards.md R352). -/
theorem State.ReadsDevice.waitsForEver {s : State} (h : s.ReadsDevice) (hdone : s.status.done = false)
    (hfail : s.status.wRdFail = false) (answers : List (Half × Bool)) :
    (s.atReads.afterReads answers).requestWord.WaitsForEver answers where
  phase := rfl
  request := ⟨rfl, rfl, (BitVec.ofNat_add 0x40 answers.length).symm⟩
  running := ⟨h.busy, hdone, hdone⟩
  warning := by
    show (s.status.wRdFail || answers.any (·.2)) = _
    rw [hfail, Bool.false_or]
  stays := step_stuck rfl rfl

/-- CHECKSUM of 230X at 256 bytes, at its acceptance. -/
def State.checksumStarted (s : State) : State :=
  { s.accept (encode (.checksum Variant.ft230X.code true)) with sz := .b256 }.seedChecksum

theorem startChecksum_230X (s : State) :
    startChecksum (s.accept (encode (.checksum Variant.ft230X.code true))) = s.checksumStarted := by
  rcases startChecksum_cases (s.accept (encode (.checksum Variant.ft230X.code true))) with ⟨hnone, -⟩ | ⟨v, -, heq⟩
  · rw [State.accept_cmdv, CmdV.ofWord_checksum] at hnone
    simp [Variant.ofCode?, Variant.code] at hnone
  · rw [heq, State.accept_cmdv, CmdV.ofWord_checksum]
    rfl

theorem State.checksumStarted_readsDevice {s : State} (hs : s.params.tables = SourceTables.standard) :
    s.checksumStarted.ReadsDevice :=
  ⟨rfl, rfl, by simp [State.on230X, State.runCode, State.checksumStarted, CmdV.ofWord_checksum, opChecksum, opBuild,
    Variant.ofCode?, Variant.code], rfl, hs⟩

theorem State.BuildPasses.seeded_readsDevice {s : State} (h : s.BuildPasses .ft230X) (hsize : s.buildSize = .b256) :
    (s.imageBuilt .ft230X).seedChecksum.ReadsDevice := by
  obtain ⟨m, himage⟩ := h.imageBuilt_frame
  rw [himage]
  refine ⟨rfl, rfl, ?_, hsize, h.standard⟩
  have hop : (CmdV.ofWord (encode .build)).op = opBuild := by rw [CmdV.ofWord_build]
  have hcode : (s.budgeted .ft230X).runCode = s.cfg.variantCode := if_pos hop
  show (Variant.ofCode? (s.budgeted .ft230X).runCode == some .ft230X) = true
  rw [hcode, h.variant]
  rfl

/-- Settles O10: both commands run the loop to the first read that has no answer, and stand there. -/
theorem unansweredReadWaitsForEver : Obligations.UnansweredReadWaitsForEver := by
  refine ⟨fun s answers hs htables hlen hin => ?_, fun s answers hs hsize hlen hin => ?_⟩
  · have hloop := State.checksumStarted_readsDevice htables
    have hrun : s.checksumStarted.run seqFuel = (s.checksumStarted.atReads.afterReads answers).requestWord := by
      have hrun := hloop.run_unanswered rfl hlen (k := 0) (n := seqFuel) (by decide) (by decide)
      rw [ageInputs_zero, ← hin] at hrun
      exact hrun
    refine ⟨_, exec_of_ready (.checksum Variant.ft230X.code true) hs, ?_⟩
    rw [commandStart, startChecksum_230X, hrun]
    exact ⟨hloop.waitsForEver rfl rfl answers, rfl, rfl, rfl, rfl⟩
  · have hloop := hs.seeded_readsDevice hsize
    have hrun : (startBuild (s.accept (encode .build))).run seqFuel
        = ((s.imageBuilt .ft230X).seedChecksum.atReads.afterReads answers).requestWord := by
      have hl : leavesSteps 10 s.inputs := hin ▸ (leavesSteps_answerInputs answers).mono (by decide)
      rw [show seqFuel = 290 + 10 from rfl, hs.run_seeded 290 hl, hin]
      exact hloop.run_unanswered rfl hlen (by decide) (by decide)
    obtain ⟨m, himage⟩ := hs.imageBuilt_frame
    refine ⟨_, exec_of_ready .build hs.ready, ?_⟩
    rw [commandStart, hrun]
    refine ⟨hloop.waitsForEver ?_ ?_ answers, ?_, ?_, ?_⟩ <;> rw [himage] <;> rfl

/-! ### Reads that are all answered -/

/-- A command that waits for a word takes the answers to it and to the reads after it (10_state.md R64). -/
theorem State.run_reads_of_kWait {s : State} (h : { s with phase := .kLoop }.ReadsDevice) (hp : s.phase = .kWait)
    (hidx : s.rdwIdx = s.wi) (hlo : 0x40 ≤ s.wi.toNat) (a : Half × Bool) (rest : List (Half × Bool)) (n : Nat)
    (hhi : s.wi.toNat + (rest.length + 1) ≤ 0x50) (hin : s.inputs = answerInputs (a :: rest)) :
    s.run (n + 2 * rest.length + 1) = ({ s with phase := .kLoop }.afterReads (a :: rest)).run n := by
  have hwi : ({ s with phase := .kLoop }.afterReads [a]).wi.toNat = s.wi.toNat + 1 := by
    show (s.wi + 1).toNat = _
    rw [BitVec.toNat_add]
    show (s.wi.toNat + 1) % 256 = _
    omega
  have hreads := (h.afterReads [a]).run_reads rest (k := 0) n (by decide) (by omega) (by omega)
  rw [ageInputs_zero, State.afterReads_cons] at hreads
  rw [← hreads, State.run_answer (s := s) (n + 2 * rest.length) h.busy hp hin, State.afterReads_single, ← hidx]
  rfl

/-- At 0x7F the loop ends (42_checksum.md R263). -/
theorem State.ReadsDevice.act_end {s : State} (h : s.ReadsDevice) (hwi : s.wi = 0x7F) : s.act = s.finishChecksum := by
  have hbound : ¬s.wi.toNat < s.wordBound := by
    rw [h.wordBound, hwi]
    decide
  simp only [State.act, h.phase, State.checksumStep]
  exact if_neg hbound

/-- The words 0x50..0x7E, then the end of the loop (42_checksum.md R263). -/
theorem State.ReadsDevice.run_from_reads {s : State} (h : s.ReadsDevice) (hwi : s.wi = 0x50) (hin : s.inputs = [])
    (n : Nat) : s.run (n + 48) = { s with ck := foldFrom s.ck (s.imageWords 0x50 0x7F), wi := 0x7F }.finishChecksum.run n := by
  have hfolds := State.run_folds s 47 0x50 (n + 1) h.busy h.phase hin (by rw [h.wordBound]) hwi
    fun j _ _ _ => by simp only [h.standard, SourceTables.standard]; omega
  have hend : { s with ck := foldFrom s.ck (s.imageWords 0x50 0x7F), wi := 0x7F }.ReadsDevice :=
    ⟨h.busy, h.phase, h.on230X, h.size, h.standard⟩
  rw [show n + 48 = 47 + (n + 1) by omega, hfolds, ← hend.act_end rfl]
  exact State.run_quiet _ n hend.busy hend.phase_ne_kWait hin

/-- The end of the loop for a command that waited with the reads of `answers` still to be answered. -/
def State.allAnswered (s : State) (answers : List (Half × Bool)) : State :=
  { s with
    phase := .kLoop, ck := foldFrom s.ck (answers.map (liveWord s.params) ++ s.imageWords 0x50 0x7F), wi := 0x7F
    status := { s.status with wRdFail := s.status.wRdFail || answers.any (·.2) }
    rdwReq := false, rdwWait := false, rdwIdx := 0x4F, inputs := [] }

/-- From K_WAIT, with every read answered, the run comes to the end of the loop. -/
theorem State.run_allAnswered {s : State} (h : { s with phase := .kLoop }.ReadsDevice) (hp : s.phase = .kWait)
    (hidx : s.rdwIdx = s.wi) (hlo : 0x40 ≤ s.wi.toNat) (hhi : s.wi.toNat < 0x50) {answers : List (Half × Bool)}
    (hlen : s.wi.toNat + answers.length = 0x50) (hin : s.inputs = answerInputs answers) {n : Nat} (hn : 81 ≤ n) :
    ∃ m, s.run n = (s.allAnswered answers).finishChecksum.run (m + 1) := by
  obtain ⟨a, rest, rfl⟩ : ∃ a rest, answers = a :: rest := by
    cases answers with
    | nil => simp at hlen; omega
    | cons a rest => exact ⟨a, rest, rfl⟩
  rw [List.length_cons] at hlen
  obtain ⟨m, rfl⟩ : ∃ m, n = m + 1 + 48 + 2 * rest.length + 1 := ⟨n - 50 - 2 * rest.length, by omega⟩
  have hwi : s.wi + BitVec.ofNat 8 (a :: rest).length = 0x50 := by
    apply BitVec.eq_of_toNat_eq
    rw [BitVec.toNat_add, BitVec.toNat_ofNat, List.length_cons]
    show (s.wi.toNat + (rest.length + 1) % 256) % 256 = 0x50
    omega
  have hlast := (h.afterReads (a :: rest)).run_from_reads hwi rfl (m + 1)
  have hend : { { s with phase := .kLoop }.afterReads (a :: rest) with
      ck := foldFrom ({ s with phase := .kLoop }.afterReads (a :: rest)).ck (s.imageWords 0x50 0x7F), wi := 0x7F }
      = s.allAnswered (a :: rest) := by
    unfold State.afterReads State.allAnswered
    simp only [hwi, if_neg (List.cons_ne_nil a rest), foldFrom_append]
    rfl
  refine ⟨m, ?_⟩
  rw [State.run_reads_of_kWait h hp hidx hlo a rest (m + 1 + 48) (by omega) hin, hlast]
  exact congrArg (fun t => State.run (m + 1) t.finishChecksum) hend

/-- Step 10 is the last of a BUILD (40_build.md R204). -/
theorem State.run_results {s : State} (hb : s.status.busy = true) (hp : s.phase = .b10) (hin : s.inputs = []) (n : Nat) :
    s.run (n + 1) = buildResults s := by
  have hact : s.act = buildResults s := by simp only [State.act, hp]
  rw [State.run_quiet s n hb (by simp [hp]) hin, hact]
  exact State.run_idle _ n rfl

/-- Step 10 of an image of 256 bytes. -/
theorem buildResults_of_256 {s : State} (h : s.sz = .b256) :
    buildResults s =
      { s with uarea := BitVec.ofInt 16 s.ua, imgSize := 0x100, status := s.status.markBuilt }.endWith .none := by
  unfold buildResults
  rw [h]
  rfl

/-- The end of the loop of a BUILD of 256 bytes, and step 10 (40_build.md R203, R204). -/
theorem State.run_finishChecksum_build {s : State} (hb : s.status.busy = true) (hop : s.cmdv.op = opBuild)
    (hsize : s.sz = .b256) (hin : s.inputs = []) (n : Nat) :
    s.finishChecksum.run (n + 1) =
      { s with
        img := (s.putImgHalf 0xFE s.ck).img, cksum := s.ck, phase := .idle, rdwReq := false
        uarea := BitVec.ofInt 16 s.ua, imgSize := 0x100, status := s.status.markBuilt.ended .none } := by
  have hfinish : s.finishChecksum = { s.putImgHalf 0xFE s.ck with cksum := s.ck, phase := .b10 } := by
    rw [State.finishChecksum_build s hop, hsize]
    rfl
  have hb10 : s.finishChecksum.status.busy = true := by rw [hfinish]; exact hb
  rw [State.run_results hb10 (by rw [hfinish]) (by rw [hfinish]; exact hin),
    buildResults_of_256 (by rw [hfinish]; exact hsize), hfinish]
  rfl

/-- Settles O11: the answers and the last image words are folded, and the command ends as its opcode says. -/
theorem waitingCommandGoesOn : Obligations.WaitingCommandGoesOn := by
  intro s answers ck hb hp hcoh h230 hsize htables hidx hlo hhi hlen hin hck
  have hloop : { s with phase := .kLoop }.ReadsDevice := ⟨hb, rfl, h230, hsize, htables⟩
  obtain ⟨m, hrun⟩ := State.run_allAnswered hloop hp hidx hlo hhi hlen hin (n := seqFuel) (by decide)
  have hstep : step s = .next (s.run seqFuel) := by
    have hack : s.ackNext = true := by
      cases answers with
      | nil => simp at hlen; omega
      | cons a rest => simp [State.ackNext, hin, answerInputs]
    have hcan : s.canRun = true := by simp [State.canRun, hb, hp, hack]
    simp [step, hcan, resume, hcoh]
  rw [hstep, hrun]
  refine ⟨fun hop => ?_, fun hop => ?_⟩
  · rw [State.finishChecksum_checksum (s.allAnswered answers) hop, State.run_idle _ _ rfl, hck]
    rfl
  · rw [State.run_finishChecksum_build (s := s.allAnswered answers) hb hop hsize rfl, hck]
    rfl

end Sys2Proof.Machine
end

section
/-! SUPPORT. Host reads while a command runs (20_memory.md R114): which bus words the IMG window is. -/

namespace Sys2Proof.Machine

/-- The IMG window is the words at the byte addresses 0x400..0x4FF (10_state.md R31, R56). -/
theorem State.busTarget_isImg_iff {s : State} (hfit : s.params.caps.fit = true) (a : BusAddr) :
    (s.busTarget a).isImg = true ↔ 0x400 ≤ 4 * a.toNat ∧ 4 * a.toNat < 0x500 := by
  constructor
  · intro himg
    rcases s.busTarget_stands a with hu | ⟨haddr, -, hin⟩
    · simp [hu, BusTarget.isImg] at himg
    · generalize s.busTarget a = t at *
      cases t with
      | window r k =>
        have hk := (window_inside_iff r k).1 hin
        have hA := Option.some.inj haddr
        cases r <;> simp [BusTarget.isImg] at himg
        simp only [windowBase, windowWords] at hk hA
        omega
      | _ => simp [BusTarget.isImg] at himg
  · rintro ⟨hlo, hhi⟩
    have hk : a.toNat - 0x100 < windowWords .img := by
      show a.toNat - 0x100 < 64
      omega
    have haddr : (BusTarget.window .img (a.toNat - 0x100)).byteAddr? = some (4 * a.toNat) := by
      simp only [BusTarget.byteAddr?, windowBase, Option.some.injEq]
      omega
    rw [State.busTarget_of_byteAddr? ((window_inside_iff _ _).2 hk) (window_standsAt hfit hk) haddr]
    rfl

/-- A read of the IMG window while a command runs draws the next free value (20_memory.md R114; log 9). -/
theorem hostRead_of_busy_img {s : State} {a : BusAddr} (hr : s.rst = false) (hb : s.status.busy = true)
    (himg : (s.busTarget a).isImg = true) :
    hostRead a s = { s with hostRdata := Config.busyImgRead s.draws, draws := s.draws + 1 } := by
  simp [hostRead, hr, hb, himg]

/-- A read of any other word draws no free value (20_memory.md R114). -/
theorem hostRead_of_not_img {s : State} {a : BusAddr} (hr : s.rst = false) (himg : (s.busTarget a).isImg = false) :
    hostRead a s = { s with hostRdata := s.busValue (s.busTarget a) } := by
  simp [hostRead, hr, himg]

/-- Settles O42: the byte address says whether the word is one of the IMG window's, and so which of the two reads it is. -/
theorem busyReads : Obligations.BusyReads := by
  intro s a hr hb hfit
  refine ⟨fun hin => ?_, fun hout => ?_⟩
  · rw [hostRead_of_busy_img hr hb ((State.busTarget_isImg_iff hfit a).2 hin)]
    exact ⟨rfl, rfl⟩
  · have himg : (s.busTarget a).isImg = false :=
      Bool.eq_false_iff.2 fun h => by have := (State.busTarget_isImg_iff hfit a).1 h; omega
    rw [hostRead_of_not_img hr himg]
    exact ⟨rfl, rfl⟩

end Sys2Proof.Machine
end

section
/-! SUPPORT. Which image bytes each step of BUILD leaves alone (20_memory.md R101, R108; 40_build.md R175, R176, R179, R191,
R201, R203). -/

namespace Sys2Proof.Machine

theorem ImgSize.bytes_ge (z : ImgSize) : 0x80 ≤ z.bytes := by cases z <;> decide

theorem ImgSize.bytes_le (z : ImgSize) : z.bytes ≤ 256 := by cases z <;> decide

theorem ne_of_toNat_lt {a o : ImgAddr} {n : Nat} (ha : n ≤ a.toNat) (ho : o.toNat < n) : a ≠ o := by
  rintro rfl
  omega

/-- A fold whose steps keep an image byte keeps it. -/
theorem imgByte_foldl {α : Type} {f : State → α → State} {a : ImgAddr} {l : List α} {s : State}
    (hf : ∀ t, ∀ x ∈ l, (f t x).imgByte a = t.imgByte a) : (l.foldl f s).imgByte a = s.imgByte a :=
  List.foldlRecOn l f (motive := fun t => t.imgByte a = s.imgByte a) rfl fun t ht x hx => (hf t x hx).trans ht

theorem State.imgByte_putImg_of_ne (s : State) {a b : ImgAddr} (v : Byte) (h : b ≠ a) :
    (s.putImg a v).imgByte b = s.imgByte b := by
  rw [State.imgByte_putImg, if_neg h]

theorem State.imgByte_rmwImg_of_ne (s : State) {a b : ImgAddr} (mask bits : Byte) (h : b ≠ a) :
    (s.rmwImg a mask bits).imgByte b = s.imgByte b := by
  rw [State.imgByte_rmwImg, if_neg h]

theorem State.imgByte_putImgHalf_of_ne (s : State) {a b : ImgAddr} (v : Half) (h0 : b ≠ a) (h1 : b ≠ a + 1) :
    (s.putImgHalf a v).imgByte b = s.imgByte b := by
  rw [State.imgByte_putImgHalf, if_neg h1, if_neg h0]

/-! ### Steps 3 and 4 -/

/-- Step 3 writes neither at or above SZ nor in the factory window (40_build.md R175). -/
theorem imgByte_buildZero_of_kept {v : Variant} {s : State} {a : ImgAddr}
    (ha : s.sz.bytes ≤ a.toNat ∨ keptByStep3 s.params v a.toNat = true) : (buildZero v s).imgByte a = s.imgByte a := by
  refine imgByte_foldl fun t n hn => ?_
  split
  · rfl
  · next hkept =>
    refine t.imgByte_putImg_of_ne _ fun hna => ?_
    subst hna
    have hlt := List.mem_range.1 hn
    have hle := ImgSize.bytes_le s.sz
    rw [BitVec.toNat_ofNat, Nat.mod_eq_of_lt (by omega)] at ha
    rcases ha with ha | ha
    · omega
    · exact hkept ha

theorem SourceTables.offsets_of_fit {t : SourceTables} (h : t.offsetsFit = true) :
    (t.offRel.toNat < 0x80 ∧ t.offRel.toNat % 2 = 0) ∧ t.offFlags.toNat < 0x80 ∧ t.offPower.toNat < 0x80
      ∧ t.offCfg.toNat < 0x80 := by
  simp only [SourceTables.offsetsFit, Bool.and_eq_true, decide_eq_true_eq, beq_iff_eq] at h
  obtain ⟨⟨⟨hrel, hflags⟩, hpower⟩, hcfg⟩ := h
  exact ⟨hrel, hflags, hpower, hcfg⟩

/-- Step 4 writes below 0x80 (20_memory.md R108). -/
theorem imgByte_buildFixed_of_high {v : Variant} {s : State} {a : ImgAddr} (hfit : s.params.tables.offsetsFit = true)
    (ha : 0x80 ≤ a.toNat) : (buildFixed v s).imgByte a = s.imgByte a := by
  obtain ⟨⟨hrel, heven⟩, hflags, hpower, hcfg⟩ := SourceTables.offsets_of_fit hfit
  have hrel' : (s.params.tables.offRel + 1).toNat < 0x80 := by
    rw [BitVec.toNat_add]
    show (s.params.tables.offRel.toNat + 1) % 256 < 0x80
    omega
  have hfields : (((((s.putImgHalf 0x02 s.cfg.vid).putImgHalf 0x04 s.cfg.pid).putImgHalf s.params.tables.offRel
      s.cfg.rel).putImg s.params.tables.offFlags (flagsByte s.cfg)).putImg s.params.tables.offPower
      (powerByte s.cfg)).imgByte a = s.imgByte a := by
    rw [State.imgByte_putImg_of_ne _ _ (ne_of_toNat_lt ha hpower), State.imgByte_putImg_of_ne _ _ (ne_of_toNat_lt ha hflags),
      State.imgByte_putImgHalf_of_ne _ _ (ne_of_toNat_lt ha hrel) (ne_of_toNat_lt ha hrel'),
      State.imgByte_putImgHalf_of_ne _ _ (ne_of_toNat_lt ha (by decide)) (ne_of_toNat_lt ha (by decide)),
      State.imgByte_putImgHalf_of_ne _ _ (ne_of_toNat_lt ha (by decide)) (ne_of_toNat_lt ha (by decide))]
  unfold buildFixed
  split
  · exact hfields
  · exact (State.imgByte_putImg_of_ne _ _ (ne_of_toNat_lt ha hcfg)).trans hfields

/-! ### Steps 5 and 6 -/

/-- The masked cursor is the raw one modulo SZ (40_build.md R179). -/
theorem State.cursorAddr_toNat (s : State) : s.cursorAddr.toNat = s.cur.toNat % s.sz.bytes := by
  unfold State.cursorAddr
  rw [BitVec.toNat_setWidth, BitVec.toNat_and]
  rcases s.sz with _ | _
  · show (s.cur.toNat &&& (2 ^ 7 - 1)) % 2 ^ 8 = s.cur.toNat % 2 ^ 7
    rw [Nat.and_two_pow_sub_one_eq_mod]
    omega
  · show (s.cur.toNat &&& (2 ^ 8 - 1)) % 2 ^ 8 = s.cur.toNat % 2 ^ 8
    rw [Nat.and_two_pow_sub_one_eq_mod]
    omega

/-- Image byte `a` holds `b`, and none of the next `n` bytes of the string table lands on it (40_build.md R179). -/
structure State.TableSpares (t : State) (n : Nat) (a : ImgAddr) (b : Byte) : Prop where
  holds : t.imgByte a = b
  ahead : ∀ k < n, (t.cur.toNat + k) % t.sz.bytes ≠ a.toNat

theorem State.TableSpares.putImg {t : State} {n : Nat} {a o : ImgAddr} {b : Byte} (h : t.TableSpares n a b) (v : Byte)
    (ho : a ≠ o) : (t.putImg o v).TableSpares n a b :=
  ⟨(t.imgByte_putImg_of_ne v ho).trans h.holds, h.ahead⟩

/-- One byte of the table. -/
theorem State.TableSpares.putNext {t : State} {n : Nat} {a : ImgAddr} {b : Byte} (h : t.TableSpares (n + 1) a b) (v : Byte) :
    (t.putNext v).TableSpares n a b where
  holds := by
    have hne : a ≠ t.cursorAddr := fun heq => h.ahead 0 (Nat.succ_pos n) (by rw [heq, t.cursorAddr_toNat, Nat.add_zero])
    rw [State.imgByte_putNext, if_neg hne, h.holds]
  ahead k hk := by
    have hnext := h.ahead (k + 1) (Nat.succ_lt_succ hk)
    have hcur : (t.cur + 1).toNat = (t.cur.toNat + 1) % 65536 := by rw [BitVec.toNat_add]; rfl
    rw [State.putNext_cur, State.putNext_sz, hcur]
    cases hsz : t.sz <;> simp only [hsz, ImgSize.bytes] at hnext ⊢ <;> omega

/-- The characters of a descriptor, two bytes each (40_build.md R180). -/
theorem State.TableSpares.putChars {n : Nat} {a : ImgAddr} {b : Byte} (r : RamId) (l : List Nat) {t : State}
    (h : t.TableSpares (2 * l.length + n) a b) :
    (l.foldl (fun t j => (t.putNext (t.ramByte r j)).putNext 0x00) t).TableSpares n a b := by
  induction l generalizing t with
  | nil => simpa using h
  | cons j l ih =>
    rw [List.length_cons, show 2 * (l.length + 1) + n = 2 * l.length + n + 1 + 1 by omega] at h
    exact ih ((h.putNext _).putNext _)

/-- The `2k + 2` bytes of a descriptor (40_build.md R180). -/
theorem State.TableSpares.putDesc {t : State} {k n : Nat} {a : ImgAddr} {b : Byte} (r : RamId)
    (h : t.TableSpares (2 * k + 2 + n) a b) : (t.putDesc r k).TableSpares n a b := by
  rw [show 2 * k + 2 + n = 2 * k + n + 1 + 1 by omega] at h
  exact State.TableSpares.putChars r (List.range k) (by simpa using (h.putNext _).putNext _)

/-- A string with its two header slots (40_build.md R182). -/
theorem State.TableSpares.putString {t : State} {k n : Nat} {a o l : ImgAddr} {b : Byte} (slot : Byte) (r : RamId)
    (h : t.TableSpares (2 * k + 2 + n) a b) (ho : a ≠ o) (hl : a ≠ l) : (t.putString o l slot r k).TableSpares n a b :=
  ((h.putImg slot ho).putDesc r).putImg _ hl

theorem State.TableSpares.goto {t : State} {n : Nat} {a : ImgAddr} {b : Byte} (h : t.TableSpares n a b) (p : Phase) :
    (t.goto p).TableSpares n a b :=
  ⟨h.holds, h.ahead⟩

/-- Step 5 writes the header slots, which lie below 0x80, and the three descriptors (40_build.md R181, R182). -/
theorem tableSpares_buildStrings {v : Variant} {s : State} {n : Nat} {a : ImgAddr} {b : Byte} (ha : 0x80 ≤ a.toNat)
    (h : { s with cur := s.params.strStart v }.TableSpares (2 * s.cfg.totalLen + 6 + n) a b) :
    (buildStrings v s).TableSpares n a b := by
  have hslot (o : ImgAddr) (ho : o.toNat < 0x80) : a ≠ o := ne_of_toNat_lt ha ho
  rw [show 2 * s.cfg.totalLen + 6 + n = 2 * s.cfg.mfrLen + 2 + (2 * s.cfg.prodLen + 2 + (2 * s.cfg.serLen + 2 + n)) by
    unfold ConfigRegs.totalLen; omega] at h
  unfold buildStrings
  refine State.TableSpares.goto ?_ .b6
  refine State.TableSpares.putString _ .strS ?_ (hslot 0x12 (by decide)) (hslot 0x13 (by decide))
  refine State.TableSpares.putString _ .strP ?_ (hslot 0x10 (by decide)) (hslot 0x11 (by decide))
  exact h.putString _ .strM (hslot 0x0E (by decide)) (hslot 0x0F (by decide))

/-- Step 6 writes the trailer's three bytes, on the variants that have one (40_build.md R185). -/
theorem tableSpares_buildPnp {v : Variant} {s : State} {a : ImgAddr} {b : Byte}
    (h : s.TableSpares (if hasPnp v then 3 else 0) a b) : (buildPnp v s).TableSpares 0 a b := by
  unfold buildPnp
  refine State.TableSpares.goto ?_ .b7
  split
  · next hpnp =>
    rw [if_pos hpnp] at h
    exact ((h.putNext _).putNext _).putNext _
  · next hpnp => rwa [if_neg hpnp] at h

/-- Steps 5 and 6 leave a byte above the header slots on which none of the `L` table bytes lands (40_build.md R184). -/
theorem imgByte_table_of_spared {v : Variant} {s : State} {a : ImgAddr} (ha : 0x80 ≤ a.toNat)
    (htable : ∀ k < tableLength v s.cfg, ((s.params.strStart v).toNat + k) % s.sz.bytes ≠ a.toNat) :
    (buildPnp v (buildStrings v s)).imgByte a = s.imgByte a := by
  have hstart : { s with cur := s.params.strStart v }.TableSpares (tableLength v s.cfg) a (s.imgByte a) := ⟨rfl, htable⟩
  exact (tableSpares_buildPnp (tableSpares_buildStrings ha hstart)).holds

/-! ### Step 7 -/

theorem Params.checkVariant_of_check {p : Params} (h : p.check = true) (v : Variant) : p.checkVariant v = true := by
  simp only [Params.check, Bool.and_eq_true, List.all_eq_true] at h
  exact h.2 v (mem_allVariants v)

theorem Params.offsetsFit_of_check {p : Params} (h : p.check = true) : p.tables.offsetsFit = true := by
  simp only [Params.check, Bool.and_eq_true] at h
  exact h.1.1.2

/-- Every byte step 7 writes is in 0x00..0x7D (40_build.md R194). -/
theorem Params.claim_le {p : Params} (h : p.check = true) {v : Variant} {c : Nat × Byte} (hc : c ∈ p.claims v) :
    c.1 ≤ 0x7D := by
  have hv := Params.checkVariant_of_check h v
  simp only [Params.checkVariant, Bool.and_eq_true] at hv
  obtain ⟨⟨⟨⟨⟨⟨hoffsets, -⟩, -⟩, -⟩, -⟩, -⟩, -⟩ := hv
  simp only [Params.offsetsInImage, List.all_eq_true, decide_eq_true_eq] at hoffsets
  exact hoffsets c hc

theorem Params.layout_off_le {p : Params} (h : p.check = true) {v : Variant} {e : LayoutEntry}
    (he : e ∈ (p.variant v).layout) : e.off.toNat ≤ 0x7D :=
  Params.claim_le h (List.mem_append_left _ (List.mem_append_left _ (List.mem_map_of_mem he)))

theorem Params.group_off_le {p : Params} (h : p.check = true) {v : Variant} {g : Nat} (hg : g < p.nGroups v) :
    p.groupBase v + g / 2 ≤ 0x7D :=
  Params.claim_le h (List.mem_append_left _ (List.mem_append_right _ (List.mem_map_of_mem (List.mem_range.2 hg))))

theorem Params.cbus_off_le {p : Params} (h : p.check = true) {v : Variant} {c : CbusSlot}
    (hc : c ∈ (p.variant v).cbusSlots) : c.off.toNat ≤ 0x7D :=
  Params.claim_le h (List.mem_append_right _ (List.mem_map_of_mem hc))

theorem State.applyGroup_params (v : Variant) (s : State) (g : Nat) : (State.applyGroup v s g).params = s.params := by
  unfold State.applyGroup
  split <;> rfl

theorem State.imgByte_applyGroup_of_ne {v : Variant} {s : State} {g : Nat} {a : ImgAddr}
    (h : a ≠ byteOf (s.params.groupBase v + g / 2)) : (State.applyGroup v s g).imgByte a = s.imgByte a := by
  unfold State.applyGroup
  split
  · exact (s.warn .drive).imgByte_rmwImg_of_ne _ _ h
  · exact s.imgByte_rmwImg_of_ne _ _ h

theorem State.imgByte_applyCbus_of_ne {v : Variant} {s : State} {pin : CbusSlot × Nat} {a : ImgAddr}
    (h : a ≠ pin.1.off) : (State.applyCbus v s pin).imgByte a = s.imgByte a := by
  unfold State.applyCbus
  dsimp only
  split
  · exact (s.warn .cbus).imgByte_rmwImg_of_ne _ _ h
  · exact s.imgByte_rmwImg_of_ne _ _ h

section
variable {v : Variant} {s : State} {a : ImgAddr}

theorem imgByte_layoutPass_of_high (hcheck : s.params.check = true) (ha : 0x7E ≤ a.toNat) :
    (s.layoutPass v).imgByte a = s.imgByte a :=
  imgByte_foldl fun t _ he => t.imgByte_rmwImg_of_ne _ _
    (ne_of_toNat_lt ha (Nat.lt_succ_of_le (Params.layout_off_le hcheck he)))

theorem imgByte_groupPass_of_high (hcheck : s.params.check = true) (ha : 0x7E ≤ a.toNat) :
    (s.groupPass v).imgByte a = s.imgByte a := by
  refine (List.foldlRecOn (List.range (s.params.nGroups v)) (State.applyGroup v)
    (motive := fun t : State => t.params = s.params ∧ t.imgByte a = s.imgByte a) ⟨rfl, rfl⟩
    fun t ⟨hparams, hbyte⟩ g hg => ⟨(t.applyGroup_params v g).trans hparams, ?_⟩).2
  have hoff := Params.group_off_le hcheck (List.mem_range.1 hg)
  refine (State.imgByte_applyGroup_of_ne (ne_of_toNat_lt ha ?_)).trans hbyte
  rw [hparams, byteOf, BitVec.toNat_ofNat]
  omega

theorem imgByte_cbusPass_of_high (hcheck : s.params.check = true) (ha : 0x7E ≤ a.toNat) :
    (s.cbusPass v).imgByte a = s.imgByte a :=
  imgByte_foldl fun _ _ hpin => State.imgByte_applyCbus_of_ne
    (ne_of_toNat_lt ha (Nat.lt_succ_of_le (Params.cbus_off_le hcheck (List.fst_mem_of_mem_zipIdx hpin))))

/-- Step 7 leaves every byte that is not in 0x00..0x7D (40_build.md R194). -/
theorem imgByte_buildChip_of_high (hcheck : s.params.check = true) (ha : 0x7E ≤ a.toNat) :
    (buildChip v s).imgByte a = s.imgByte a := by
  obtain ⟨m, hlayout⟩ := s.layoutPass_frame v
  obtain ⟨n, hgroup⟩ := (s.layoutPass v).groupPass_frame v
  have hcheck1 : (s.layoutPass v).params.check = true := by rw [hlayout]; exact hcheck
  have hcheck2 : ((s.layoutPass v).groupPass v).params.check = true := by rw [hgroup]; exact hcheck1
  exact (imgByte_cbusPass_of_high hcheck2 ha).trans
    ((imgByte_groupPass_of_high hcheck1 ha).trans (imgByte_layoutPass_of_high hcheck ha))

end

/-! ### Step 8 -/

/-- Step 8 writes user data only (40_build.md R201). -/
theorem imgByte_buildUser_of_off {v : Variant} {s : State} {a : ImgAddr}
    (ha : ¬(s.cfg.udOffset ≤ a.toNat ∧ a.toNat < s.cfg.udOffset + s.cfg.udSize)) :
    (buildUser v s).imgByte a = s.imgByte a := by
  have hwarn : (s.userWarnings v).imgByte a = s.imgByte a := by rw [State.userWarnings_eq]; rfl
  have hcfg : (s.userWarnings v).cfg = s.cfg := by rw [State.userWarnings_eq]
  rcases buildUser_cases v s with ⟨-, heq⟩ | ⟨-, -, heq⟩ | ⟨-, hfits, heq⟩ <;> rw [heq]
  · rfl
  · exact hwarn
  · refine Eq.trans (imgByte_foldl fun t j hj => t.imgByte_putImg_of_ne _ fun haj => ha ?_) hwarn
    have hlt := List.mem_range.1 hj
    have hle := ImgSize.bytes_le s.sz
    rw [hcfg] at haj hlt
    rw [haj, BitVec.toNat_ofNat, Nat.mod_eq_of_lt (by omega)]
    omega

/-! ### Steps 9 and 10 -/

/-- From step 9 on the trailer's two bytes are the only ones written (40_build.md R203; 42_checksum.md R268). -/
theorem State.act_imgByte_of_pastImage {s : State} {a : ImgAddr} (h : s.phase.pastImage = true)
    (ha : a.toNat < s.sz.bytes - 2 ∨ s.sz.bytes ≤ a.toNat) : s.act.sz = s.sz ∧ s.act.imgByte a = s.imgByte a := by
  cases hp : s.phase with
  | idle | b9 | b10 =>
    rw [State.act, hp]
    exact ⟨rfl, rfl⟩
  | kLoop =>
    simp only [State.act, hp]
    rcases s.checksumStep_cases with ⟨-, heq⟩ | ⟨-, -, -, -, heq⟩ | ⟨-, w, heq⟩ | ⟨-, heq⟩ <;> rw [heq]
    · exact ⟨rfl, rfl⟩
    · exact ⟨rfl, rfl⟩
    · exact ⟨rfl, rfl⟩
    · rcases s.finishChecksum_cases with ⟨-, hend⟩ | ⟨-, hend⟩ <;> rw [hend]
      · refine ⟨rfl, s.imgByte_putImgHalf_of_ne s.ck (fun heq => ?_) fun heq => ?_⟩ <;> rw [heq] at ha <;>
          cases hsz : s.sz <;> simp [hsz, ImgSize.bytes] at ha
      · exact ⟨rfl, rfl⟩
  | kWait =>
    simp only [State.act, hp]
    rcases s.waitStep_cases with ⟨k, data, err, rest, -, heq⟩ | ⟨-, heq⟩ <;> rw [heq]
    · rw [State.takeAnswer_eq]; exact ⟨rfl, rfl⟩
    · exact ⟨rfl, rfl⟩
  | _ => simp [hp, Phase.pastImage] at h

theorem State.run_imgByte_of_pastImage {s : State} {a : ImgAddr} (h : s.phase.pastImage = true)
    (ha : a.toNat < s.sz.bytes - 2 ∨ s.sz.bytes ≤ a.toNat) (n : Nat) : (s.run n).imgByte a = s.imgByte a := by
  have hact (t : State) (ht : t.phase.pastImage = true ∧ t.sz = s.sz ∧ t.imgByte a = s.imgByte a) :
      t.act.phase.pastImage = true ∧ t.act.sz = s.sz ∧ t.act.imgByte a = s.imgByte a := by
    obtain ⟨hphase, hsz, hbyte⟩ := ht
    obtain ⟨hsz', hbyte'⟩ := State.act_imgByte_of_pastImage hphase (hsz ▸ ha)
    exact ⟨(State.act_cur_of_pastImage hphase).1, hsz'.trans hsz, hbyte'.trans hbyte⟩
  refine (State.run_induction (P := fun t => t.phase.pastImage = true ∧ t.sz = s.sz ∧ t.imgByte a = s.imgByte a)
    (fun t ht _ => ?_) ⟨h, rfl, rfl⟩ n).2.2
  unfold State.tick
  split
  · exact hact t ht
  · exact hact t.countDown ht

/-! ### The whole BUILD -/

/-- An image byte on which BUILD writes nothing: it is at or above SZ, or in the factory window of a 230X at 256 bytes and no
user data lands on it (40_build.md R175, R176). -/
def State.Spares (s : State) (v : Variant) (a : ImgAddr) : Prop :=
  s.buildSize.bytes ≤ a.toNat
    ∨ (v = .ft230X ∧ s.buildSize = .b256 ∧ 0x80 ≤ a.toNat ∧ a.toNat < 0xA0
      ∧ ¬(s.cfg.udOffset ≤ a.toNat ∧ a.toNat < s.cfg.udOffset + s.cfg.udSize))

section
variable {s : State} {v : Variant} {a : ImgAddr}

theorem State.Spares.high (h : s.Spares v a) : 0x80 ≤ a.toNat := by
  rcases h with h | ⟨-, -, h, -⟩
  · exact (ImgSize.bytes_ge s.buildSize).trans h
  · exact h

theorem State.Spares.offTrailer (h : s.Spares v a) : a.toNat < s.buildSize.bytes - 2 ∨ s.buildSize.bytes ≤ a.toNat := by
  rcases h with h | ⟨-, hsize, -, h, -⟩
  · exact .inr h
  · rw [hsize]
    exact .inl (show a.toNat < 0xFE by omega)

theorem State.Spares.kept (h : s.Spares v a) (hs : s.params.tables = SourceTables.standard) :
    s.buildSize.bytes ≤ a.toNat ∨ keptByStep3 s.params v a.toNat = true := by
  rcases h with h | ⟨rfl, -, hlo, hhi, -⟩
  · exact .inl h
  · exact .inr (by simp [keptByStep3, hs, SourceTables.standard, hlo, hhi])

/-- A table that wraps round 256 bytes ends at 0x78 at the most, below the window (10_state.md R60; 40_build.md R184). -/
theorem State.Spares.offTable (h : s.Spares v a) (hs : s.BuildPasses v) :
    ∀ k < tableLength v s.cfg, ((s.params.strStart v).toNat + k) % s.buildSize.bytes ≠ a.toNat := by
  intro k hk
  rcases h with h | ⟨rfl, hsize, hlo, hhi, -⟩
  · have hpos : 0 < s.buildSize.bytes := Nat.lt_of_lt_of_le (by decide) (ImgSize.bytes_ge s.buildSize)
    have hlt := Nat.mod_lt ((s.params.strStart v).toNat + k) hpos
    omega
  · have hend := hs.tableEnd_le
    have hstart : (s.params.strStart .ft230X).toNat = 0xA0 := by
      rw [Params.strStart, hs.standard]
      rfl
    rw [hsize]
    show _ % 256 ≠ _
    omega

theorem State.Spares.offUserData (h : s.Spares v a) (hs : s.BuildPasses v) :
    ¬(s.cfg.udOffset ≤ a.toNat ∧ a.toNat < s.cfg.udOffset + s.cfg.udSize) := by
  rcases h with h | ⟨-, -, -, -, h⟩
  · have hfits := hs.userFits
    omega
  · exact h

/-- The steps 3..8 leave such a byte. -/
theorem State.Spares.imgByte_imageBuilt (h : s.Spares v a) (hs : s.BuildPasses v) :
    (s.imageBuilt v).imgByte a = s.imgByte a := by
  obtain ⟨m3, h3⟩ := buildZero_frame v (s.budgeted v)
  obtain ⟨m4, h4⟩ := buildFixed_frame v (buildZero v (s.budgeted v))
  obtain ⟨m6, h6⟩ := s.tableBuilt_frame v
  obtain ⟨m7, h7⟩ := s.chipBuilt_frame v
  have hcheck := hs.ready.paramsOk
  have hzero : (buildZero v (s.budgeted v)).imgByte a = s.imgByte a := imgByte_buildZero_of_kept (h.kept hs.standard)
  have hfixed : (buildFixed v (buildZero v (s.budgeted v))).imgByte a = _ :=
    imgByte_buildFixed_of_high (by rw [h3]; exact Params.offsetsFit_of_check hcheck) h.high
  have htable : (s.tableBuilt v).imgByte a = _ :=
    imgByte_table_of_spared h.high (by rw [h4, h3]; exact h.offTable hs)
  have hchip : (buildChip v (s.tableBuilt v)).imgByte a = _ :=
    imgByte_buildChip_of_high (by rw [h6]; exact hcheck) (by have := h.high; omega)
  have huser : (s.imageBuilt v).imgByte a = _ := imgByte_buildUser_of_off (by rw [h7]; exact h.offUserData hs)
  calc (s.imageBuilt v).imgByte a
      = (buildChip v (s.tableBuilt v)).imgByte a := huser
    _ = (s.tableBuilt v).imgByte a := hchip
    _ = (buildFixed v (buildZero v (s.budgeted v))).imgByte a := htable
    _ = (buildZero v (s.budgeted v)).imgByte a := hfixed
    _ = s.imgByte a := hzero

end

/-- Settles O21: every step of the BUILD leaves the byte. -/
theorem buildWritesOnlyItsImage : Obligations.BuildWritesOnlyItsImage := by
  intro s v answers h
  have hl : leavesSteps 9 s.inputs := h.inputs ▸ (leavesSteps_answerInputs answers).mono (by decide)
  obtain ⟨m, himage⟩ := h.toBuildPasses.imageBuilt_frame
  have hphase : (s.imageBuilt v).phase.pastImage = true := by rw [himage]; rfl
  have hsz : (s.imageBuilt v).sz = s.buildSize := by rw [himage]; rfl
  have spared (a : ImgAddr) (ha : s.Spares v a) :
      ((startBuild (s.accept (encode .build))).run seqFuel).imgByte a = s.imgByte a := by
    rw [show seqFuel = 291 + 9 from rfl, h.toBuildPasses.run_imageBuilt 291 hl,
      State.run_imgByte_of_pastImage (s := { s.imageBuilt v with inputs := ageInputs 9 s.inputs }) hphase
        (hsz ▸ ha.offTrailer)]
    exact ha.imgByte_imageBuilt h.toBuildPasses
  exact ⟨_, exec_of_ready .build h.ready, fun a ha => spared a (.inl ha),
    fun hv hsize a hlo hhi hud => spared a (.inr ⟨hv, hsize, hlo, hhi, hud⟩)⟩

end Sys2Proof.Machine
end

section
/-! SUPPORT. A command word by its fields, the decoder's answers, and the rows of the opcode map (30_encoding.md
R130..R136). -/

namespace Sys2Proof

/-! ### The fields of a word -/

/-- A command word is its five fields (30_encoding.md R130). -/
theorem word_ext_iff {w u : Word} :
    w = u ↔ fieldOp w = fieldOp u ∧ fieldVar w = fieldVar u ∧ fieldFn w = fieldFn u ∧ fieldSzb w = fieldSzb u
      ∧ fieldRes w = fieldRes u := by
  refine ⟨fun h => h ▸ ⟨rfl, rfl, rfl, rfl, rfl⟩, fun ⟨hop, hvar, hfn, hszb, hres⟩ => ?_⟩
  have hop := congrArg BitVec.toNat hop
  have hvar := congrArg BitVec.toNat hvar
  have hfn := congrArg BitVec.toNat hfn
  have hszb := congrArg Bool.toNat hszb
  have hres := congrArg BitVec.toNat hres
  simp only [fieldOp, fieldVar, fieldFn, fieldSzb, fieldRes, Machine.toNat_extractLsb', Machine.toNat_getLsbD] at *
  exact BitVec.eq_of_toNat_eq (by omega)

@[simp] theorem fieldOp_and (w m : Word) : fieldOp (w &&& m) = fieldOp w &&& fieldOp m := BitVec.extractLsb'_and
@[simp] theorem fieldVar_and (w m : Word) : fieldVar (w &&& m) = fieldVar w &&& fieldVar m := BitVec.extractLsb'_and
@[simp] theorem fieldFn_and (w m : Word) : fieldFn (w &&& m) = fieldFn w &&& fieldFn m := BitVec.extractLsb'_and
@[simp] theorem fieldSzb_and (w m : Word) : fieldSzb (w &&& m) = (fieldSzb w && fieldSzb m) := BitVec.getLsbD_and ..
@[simp] theorem fieldRes_and (w m : Word) : fieldRes (w &&& m) = fieldRes w &&& fieldRes m := BitVec.extractLsb'_and

theorem toNat_append_eq_add {m n : Nat} (x : BitVec m) (y : BitVec n) : (x ++ y).toNat = 2 ^ n * x.toNat + y.toNat := by
  rw [BitVec.toNat_append, Nat.shiftLeft_eq, Nat.mul_comm, Nat.two_pow_add_eq_or_of_lt y.isLt]

section
variable (szb : Bool) (fn var op : Nibble)

/-- The fields stand side by side in the word. -/
theorem toNat_commandWord :
    (commandWord szb fn var op).toNat = op.toNat + 2 ^ 4 * var.toNat + 2 ^ 8 * fn.toNat + 2 ^ 12 * szb.toNat := by
  unfold commandWord
  change BitVec.toNat (w := 19 + 1 + 4 + 4 + 4) _ = _
  simp only [toNat_append_eq_add, BitVec.toNat_ofBool, BitVec.toNat_ofNat]
  omega

@[simp] theorem fieldOp_commandWord : fieldOp (commandWord szb fn var op) = op := by
  apply BitVec.eq_of_toNat_eq
  rw [fieldOp, Machine.toNat_extractLsb', toNat_commandWord]
  omega

@[simp] theorem fieldVar_commandWord : fieldVar (commandWord szb fn var op) = var := by
  apply BitVec.eq_of_toNat_eq
  rw [fieldVar, Machine.toNat_extractLsb', toNat_commandWord]
  omega

@[simp] theorem fieldFn_commandWord : fieldFn (commandWord szb fn var op) = fn := by
  apply BitVec.eq_of_toNat_eq
  have := szb.toNat_le
  rw [fieldFn, Machine.toNat_extractLsb', toNat_commandWord]
  omega

@[simp] theorem fieldSzb_commandWord : fieldSzb (commandWord szb fn var op) = szb := by
  rw [fieldSzb, BitVec.getLsbD, toNat_commandWord, Nat.testBit_eq_decide_div_mod_eq]
  cases szb <;> simp <;> omega

@[simp] theorem fieldRes_commandWord : fieldRes (commandWord szb fn var op) = 0 := by
  apply BitVec.eq_of_toNat_eq
  have := szb.toNat_le
  rw [fieldRes, Machine.toNat_extractLsb', toNat_commandWord]
  show _ = 0
  omega

end

/-- A word is the encoder's for these fields exactly when they are its fields and RES is 0 (30_encoding.md R130). -/
theorem eq_commandWord_iff {w : Word} {szb : Bool} {fn var op : Nibble} :
    w = commandWord szb fn var op ↔
      fieldOp w = op ∧ fieldVar w = var ∧ fieldFn w = fn ∧ fieldSzb w = szb ∧ fieldRes w = 0 := by
  simp [word_ext_iff]

/-! ### The decoder's answers -/

/-- All the decoder can answer: the command of an opcode whose must-be-0 fields are 0, or an error (30_encoding.md
R132..R134). -/
theorem decode_cases (w : Word) :
    (fieldOp w = 1 ∧ (fieldVar w = 0 ∧ fieldFn w = 0 ∧ fieldSzb w = false ∧ fieldRes w = 0) ∧ decode w = .ok .build)
      ∨ (fieldOp w = 2 ∧ (fieldSzb w = false ∧ fieldRes w = 0) ∧ decode w = .ok (.encode (fieldVar w) (fieldFn w)))
      ∨ (fieldOp w = 3 ∧ (fieldFn w = 0 ∧ fieldRes w = 0) ∧ decode w = .ok (.checksum (fieldVar w) (fieldSzb w)))
      ∨ ∃ e, decode w = .error e := by
  have hop (n : Nat) (h : (fieldOp w).toNat = n) : fieldOp w = BitVec.ofNat 4 n := by
    rw [← h, BitVec.ofNat_toNat, BitVec.setWidth_eq]
  unfold decode
  split
  · next h =>
    split
    · next hzero => exact .inl ⟨hop 1 h, hzero, rfl⟩
    · exact .inr (.inr (.inr ⟨_, rfl⟩))
  · next h =>
    split
    · next hzero => exact .inr (.inl ⟨hop 2 h, hzero, rfl⟩)
    · exact .inr (.inr (.inr ⟨_, rfl⟩))
  · next h =>
    split
    · next hzero => exact .inr (.inr (.inl ⟨hop 3 h, hzero, rfl⟩))
    · exact .inr (.inr (.inr ⟨_, rfl⟩))
  · exact .inr (.inr (.inr ⟨_, rfl⟩))

/-- The decoder reads back every instruction the encoder writes. -/
theorem decode_encode (i : Instr) : decode (encode i) = .ok i := by
  cases i <;> simp [encode, decode]

/-- The decoder reads an instruction only from the word the encoder writes for it. -/
theorem encode_of_decode {w : Word} {i : Instr} (h : decode w = .ok i) : w = encode i := by
  rcases decode_cases w with ⟨hop, ⟨hvar, hfn, hszb, hres⟩, heq⟩ | ⟨hop, ⟨hszb, hres⟩, heq⟩ | ⟨hop, ⟨hfn, hres⟩, heq⟩
    | ⟨e, heq⟩ <;> rw [heq] at h <;> cases h
  · exact eq_commandWord_iff.2 ⟨hop, hvar, hfn, hszb, hres⟩
  · exact eq_commandWord_iff.2 ⟨hop, rfl, rfl, hszb, hres⟩
  · exact eq_commandWord_iff.2 ⟨hop, rfl, hfn, rfl, hres⟩

theorem decode_eq_ok_iff {w : Word} {i : Instr} : decode w = .ok i ↔ w = encode i :=
  ⟨encode_of_decode, fun h => h ▸ decode_encode i⟩

/-- Settles O1: a word is its five fields, and the decoder reads from them what the encoder puts there. -/
theorem decodeInvertsEncode : Obligations.DecodeInvertsEncode := fun _ _ => decode_eq_ok_iff

/-- Settles O3: the first three words are the encoder's for those commands, and the decoder refuses the others. -/
theorem writtenWordsDecode : Obligations.WrittenWordsDecode :=
  ⟨decode_encode .build, decode_encode (.encode Variant.ft232H.code ChannelFn.cpu.code),
    decode_encode (.checksum Variant.ft230X.code true), by decide, by decide⟩

/-! ### The rows of the opcode map -/

/-- BUILD's row is its one word (30_encoding.md R133). -/
theorem buildRow_iff (w : Word) : w &&& 0xFFFFFFFF#32 = 0x00000001#32 ↔ w = encode .build := by
  rw [show (0xFFFFFFFF#32) = BitVec.allOnes 32 by decide, BitVec.and_allOnes]
  rfl

/-- ENCODE's row leaves VAR and FN free (30_encoding.md R133). -/
theorem encodeRow_iff (w : Word) :
    w &&& 0xFFFFF00F#32 = 0x00000002#32 ↔ w = encode (.encode (fieldVar w) (fieldFn w)) := by
  obtain ⟨hop, hvar, hfn, hszb, hres⟩ : fieldOp 0xFFFFF00F#32 = BitVec.allOnes 4 ∧ fieldVar 0xFFFFF00F#32 = 0#4
      ∧ fieldFn 0xFFFFF00F#32 = 0#4 ∧ fieldSzb 0xFFFFF00F#32 = true ∧ fieldRes 0xFFFFF00F#32 = BitVec.allOnes 19 := by decide
  rw [show 0x00000002#32 = commandWord false 0#4 0#4 2 by decide, encode, eq_commandWord_iff, eq_commandWord_iff]
  simp only [fieldOp_and, fieldVar_and, fieldFn_and, fieldSzb_and, fieldRes_and, hop, hvar, hfn, hszb, hres,
    BitVec.and_allOnes, BitVec.and_zero, Bool.and_true, true_and]

/-- CHECKSUM's row leaves VAR and SZB free (30_encoding.md R133). -/
theorem checksumRow_iff (w : Word) :
    w &&& 0xFFFFEF0F#32 = 0x00000003#32 ↔ w = encode (.checksum (fieldVar w) (fieldSzb w)) := by
  obtain ⟨hop, hvar, hfn, hszb, hres⟩ : fieldOp 0xFFFFEF0F#32 = BitVec.allOnes 4 ∧ fieldVar 0xFFFFEF0F#32 = 0#4
      ∧ fieldFn 0xFFFFEF0F#32 = BitVec.allOnes 4 ∧ fieldSzb 0xFFFFEF0F#32 = false
      ∧ fieldRes 0xFFFFEF0F#32 = BitVec.allOnes 19 := by decide
  rw [show 0x00000003#32 = commandWord false 0 0#4 3 by decide, encode, eq_commandWord_iff, eq_commandWord_iff]
  simp only [fieldOp_and, fieldVar_and, fieldFn_and, fieldSzb_and, fieldRes_and, hop, hvar, hfn, hszb, hres,
    BitVec.and_allOnes, BitVec.and_zero, Bool.and_false, true_and]

/-- The fields of ENCODE's word are its operands (30_encoding.md R133). -/
theorem eq_encode_encode_iff {w : Word} {var fn : Nibble} :
    w = encode (.encode var fn) ↔
      w = encode (.encode (fieldVar w) (fieldFn w)) ∧ var = fieldVar w ∧ fn = fieldFn w := by
  constructor
  · rintro rfl
    simp [encode]
  · rintro ⟨hw, rfl, rfl⟩
    exact hw

/-- The fields of CHECKSUM's word are its operands (30_encoding.md R133). -/
theorem eq_encode_checksum_iff {w : Word} {var : Nibble} {szb : Bool} :
    w = encode (.checksum var szb) ↔
      w = encode (.checksum (fieldVar w) (fieldSzb w)) ∧ var = fieldVar w ∧ szb = fieldSzb w := by
  constructor
  · rintro rfl
    simp [encode]
  · rintro ⟨hw, rfl, rfl⟩
    exact hw

/-- The words of the opcode map are those the encoder writes (30_encoding.md R132). -/
theorem wellFormedWord_iff_encode (w : Word) : wellFormedWord w = true ↔ ∃ i, w = encode i := by
  have hrows : wellFormedWord w = true ↔
      w &&& 0xFFFFFFFF#32 = 0x00000001#32 ∨ w &&& 0xFFFFF00F#32 = 0x00000002#32 ∨ w &&& 0xFFFFEF0F#32 = 0x00000003#32 := by
    simp only [wellFormedWord, opcodeRows, OpcodeRow.accepts, buildRow, encodeRow, checksumRow, List.any_cons, List.any_nil,
      Bool.or_false, Bool.or_eq_true, beq_iff_eq]
  rw [hrows, buildRow_iff, encodeRow_iff, checksumRow_iff]
  constructor
  · rintro (h | h | h) <;> exact ⟨_, h⟩
  · rintro ⟨i, h⟩
    cases i with
    | build => exact .inl h
    | encode var fn =>
      obtain ⟨hrow, -, -⟩ := eq_encode_encode_iff.1 h
      exact .inr (.inl hrow)
    | checksum var szb =>
      obtain ⟨hrow, -, -⟩ := eq_encode_checksum_iff.1 h
      exact .inr (.inr hrow)

/-- Settles O2: each row's words are the encoder's for its command, and so the words the decoder reads as it. -/
theorem legalWordsAreTheOpcodeRows : Obligations.LegalWordsAreTheOpcodeRows := by
  intro w
  refine ⟨?_, fun var fn => ?_, fun var szb => ?_, ?_⟩
  · rw [decode_eq_ok_iff, buildRow_iff]
  · rw [decode_eq_ok_iff, eq_encode_encode_iff, encodeRow_iff]
    rfl
  · rw [decode_eq_ok_iff, eq_encode_checksum_iff, checksumRow_iff]
    rfl
  · simp only [decode_eq_ok_iff, wellFormedWord_iff_encode]

end Sys2Proof
end

section
/-! SUPPORT. A host write of a word to CMD, and what becomes of an illegal one (30_encoding.md R134; 60_exceptions.md R300,
R303). -/

namespace Sys2Proof.Machine

/-- The word at bus address 0 is CMD (10_state.md R31). -/
theorem arrive_cmdWrite (w : Word) (s : State) : arrive (.hostWrite 0 w) s = writeCmd w s := by
  have hcmd : busTarget 0 = .cmd := by decide
  simp only [arrive, hcmd, if_true]

/-- Where the sequencer has no step to take, the host's write to CMD that comes next is carried out. -/
theorem step_of_cmdWrite {s : State} {k : Nat} {w : Word} {rest : List Arrival} (hidle : s.canRun = false)
    (hin : s.inputs = ⟨k, .hostWrite 0 w⟩ :: rest) : step s = writeCmd w { s with inputs := rest } := by
  simp only [step, hidle, landInput, hin]
  exact arrive_cmdWrite w _

theorem State.canRun_of_idle {s : State} (h : s.status.busy = false) : s.canRun = false := by simp [State.canRun, h]

/-- A word that no instruction encodes is illegal (30_encoding.md R134). -/
theorem writeCmd_of_illegal {w : Word} (h : wellFormedWord w = false) (s : State) : writeCmd w s = issueIllegal w s := by
  unfold writeCmd
  split
  · next i hi =>
    have hwf := (wellFormedWord_iff_encode w).2 ⟨i, encode_of_decode hi⟩
    simp [h] at hwf
  · rfl

/-- A ready machine accepts an illegal word and ends it at once (60_exceptions.md R303, R306). -/
theorem issueIllegal_of_ready (w : Word) {s : State} (h : s.Ready) :
    issueIllegal w s = .next ((s.accept w).endWith .badCommand) := by
  rw [issueIllegal, issue_of_ready w _ s h, State.run_idle _ _ rfl]

/-- Settles O4: the write is carried out, no instruction encodes the word, and it is accepted and ended. -/
theorem illegalWordEndsWithBadCommand : Obligations.IllegalWordEndsWithBadCommand := by
  intro s w k rest hs hin hillegal
  have hwf : wellFormedWord w = false := by
    rw [Bool.eq_false_iff]
    intro hrow
    obtain ⟨r, hr, hw⟩ := List.any_eq_true.1 hrow
    exact hillegal ⟨r, hr, beq_iff_eq.1 hw⟩
  rw [step_of_cmdWrite (State.canRun_of_idle hs.notBusy) hin, writeCmd_of_illegal hwf,
    issueIllegal_of_ready w (s := { s with inputs := rest }) ⟨hs.rstLow, hs.notBusy, hs.paramsOk⟩]
  rfl

end Sys2Proof.Machine
end

section
/-! SUPPORT. The checksum procedure of any variant and size with every device read answered, and the end of a BUILD: the
trailer and the results (40_build.md R203, R204; 42_checksum.md R261..R268). -/

namespace Sys2Proof.Machine

/-! ### The end of the loop -/

theorem State.wordBound_ge (s : State) : 63 ≤ s.wordBound := by
  unfold State.wordBound
  cases s.sz <;> decide

theorem State.wordBound_le (s : State) : s.wordBound ≤ 127 := by
  unfold State.wordBound
  cases s.sz <;> decide

/-- The loop ends at its bound (42_checksum.md R263). -/
theorem State.run_loopEnd {s : State} (hb : s.status.busy = true) (hp : s.phase = .kLoop) (hin : s.inputs = [])
    (hwi : s.wordBound ≤ s.wi.toNat) (n : Nat) : s.run (n + 1) = s.finishChecksum.run n := by
  have hact : s.act = s.finishChecksum := by
    simp only [State.act, hp, State.checksumStep]
    exact if_neg (Nat.not_lt.2 hwi)
  rw [State.run_quiet s n hb (by simp [hp]) hin, hact]

/-- The loop at its jump. -/
def State.atJump (s : State) : State := { s with ck := foldFrom s.ck (s.imageWords 0 0x12), wi := 0x12 }

/-- On 230X the loop jumps from 0x12 to the first device read, whatever the size (42_checksum.md R265). -/
theorem State.act_atJump {s : State} (hp : s.phase = .kLoop) (h230 : s.on230X = true)
    (hs : s.params.tables = SourceTables.standard) : s.atJump.act = s.atReads := by
  have hphase : s.atJump.phase = .kLoop := hp
  have hbound : s.atJump.wi.toNat < s.atJump.wordBound := Nat.lt_of_lt_of_le (show 0x12 < 63 by decide) s.wordBound_ge
  have hskip : (s.atJump.on230X && s.atJump.wi.toNat == s.atJump.params.tables.skipLo) = true := by
    rw [show s.atJump.on230X = true from h230, show s.atJump.params.tables = SourceTables.standard from hs]
    rfl
  simp only [State.act, hphase, State.checksumStep]
  rw [if_pos hbound, if_pos hskip, show s.atJump.params.tables = SourceTables.standard from hs, ← hphase]
  rfl

/-! ### The procedure from its first word to its end -/

/-- A command stands at the first word of the checksum of variant `v`, with the default tables (42_checksum.md R261). -/
structure State.StartsChecksum (s : State) (v : Variant) : Prop where
  busy : s.status.busy = true
  phase : s.phase = .kLoop
  variant : Variant.ofCode? s.runCode = some v
  standard : s.params.tables = SourceTables.standard
  seed : s.ck = s.params.tables.ckSeed
  first : s.wi = 0

theorem State.StartsChecksum.on230X_iff {s : State} {v : Variant} (h : s.StartsChecksum v) :
    s.on230X = true ↔ v = .ft230X := by
  simp [State.on230X, h.variant]

/-- The end of the loop after `answers` answered the device reads: the sum of the words of 42_checksum.md R270. -/
def State.checksummed (s : State) (v : Variant) (answers : List (Half × Bool)) : State :=
  { s with
    ck := s.checksumOf v s.sz answers, wi := finalIndex v s.sz
    status := { s.status with wRdFail := s.status.wRdFail || answers.any (·.2) }
    rdwReq := if answers = [] then s.rdwReq else false
    rdwWait := if answers = [] then s.rdwWait else false
    rdwIdx := if answers = [] then s.rdwIdx else 0x4F
    inputs := [] }

theorem State.checksummed_ck (s : State) (v : Variant) (answers : List (Half × Bool)) :
    (s.checksummed v answers).ck = (s.checksummed v answers).checksumOf v (s.checksummed v answers).sz answers := rfl

section
variable {s : State} {v : Variant}

/-- Without device reads nothing but CK and WI changes. -/
theorem State.checksummed_nil (hin : s.inputs = []) :
    s.checksummed v [] = { s with ck := s.checksumOf v s.sz [], wi := finalIndex v s.sz } := by
  simp [State.checksummed, hin]

/-- On the other variants every word below the bound is folded (42_checksum.md R263). -/
theorem State.StartsChecksum.run_plain (h : s.StartsChecksum v) (hv : v ≠ .ft230X) (hin : s.inputs = []) (n : Nat) :
    s.run (s.wordBound + (n + 1)) = (s.checksummed v []).finishChecksum.run n := by
  have hfolds := State.run_folds s s.wordBound 0 (n + 1) h.busy h.phase hin (Nat.le_of_eq (Nat.zero_add _)) h.first
    fun j _ _ h230 => absurd (h.on230X_iff.1 h230) hv
  have hsum : s.checksumOf v s.sz [] = foldFrom s.ck (s.imageWords 0 s.wordBound) := by
    simp only [State.checksumOf, State.foldedWords, if_neg hv, h.seed]
    rfl
  have hindex : finalIndex v s.sz = BitVec.ofNat 8 s.wordBound := by
    unfold finalIndex State.wordBound
    cases s.sz <;> simp [hv, ImgSize.bytes]
  rw [hfolds, Nat.zero_add, State.checksummed_nil hin, hsum, hindex]
  refine State.run_loopEnd
    (s := { s with ck := foldFrom s.ck (s.imageWords 0 s.wordBound), wi := BitVec.ofNat 8 s.wordBound }) h.busy h.phase hin
    ?_ n
  have hle := s.wordBound_le
  show s.wordBound ≤ (BitVec.ofNat 8 s.wordBound).toNat
  rw [BitVec.toNat_ofNat]
  omega

/-- On 230X at 128 bytes the words before the jump are folded, and the jump passes the bound (42_checksum.md R265). -/
theorem State.StartsChecksum.run_skipped (h : s.StartsChecksum .ft230X) (hsz : s.sz = .b128) (hin : s.inputs = [])
    (n : Nat) : s.run (n + 20) = (s.checksummed .ft230X []).finishChecksum.run n := by
  have hbound : s.wordBound = 63 := by simp [State.wordBound, hsz, ImgSize.bytes]
  have hfolds := State.run_folds s 18 0 (n + 2) h.busy h.phase hin (by omega) h.first
    fun j _ hj _ => by simp only [h.standard, SourceTables.standard]; omega
  have hsum : s.checksumOf .ft230X s.sz [] = foldFrom s.ck (s.imageWords 0 0x12) := by
    simp only [State.checksumOf, State.foldedWords, if_true, h.seed, hsz]
  have hindex : finalIndex .ft230X s.sz = 0x40 := by rw [hsz]; rfl
  rw [show n + 20 = 18 + (n + 2) by omega, hfolds, State.checksummed_nil hin, hsum, hindex]
  calc s.atJump.run (n + 2)
      = s.atJump.act.run (n + 1) := State.run_quiet s.atJump (n + 1) h.busy (h.phase.trans_ne (by decide)) hin
    _ = s.atReads.run (n + 1) := by rw [State.act_atJump h.phase (h.on230X_iff.2 rfl) h.standard]
    _ = s.atReads.finishChecksum.run n :=
        State.run_loopEnd (s := s.atReads) h.busy h.phase hin
          (Nat.le_trans (Nat.le_of_eq hbound) (show 63 ≤ 0x40 by decide)) n

/-- On 230X at 256 bytes the sixteen words from the device stand between those of the image (42_checksum.md R266). -/
theorem State.StartsChecksum.run_live (h : s.StartsChecksum .ft230X) (hsz : s.sz = .b256) {answers : List (Half × Bool)}
    (hlen : answers.length = 16) {k : Nat} (hk : k ≤ 80) (n : Nat) :
    { s with inputs := ageInputs k (answerInputs answers) }.run (n + 99) =
      (s.checksummed .ft230X answers).finishChecksum.run n := by
  have hloop : s.ReadsDevice := ⟨h.busy, h.phase, h.on230X_iff.2 rfl, hsz, h.standard⟩
  have hne : answers ≠ [] := fun hnil => by simp [hnil] at hlen
  have hreads := hloop.atReads.run_reads answers (k := k + 19) (n + 48) (by omega) (Nat.le_refl 0x40)
    (show 0x40 + answers.length ≤ 0x50 by omega)
  have hwi : (s.atReads.afterReads answers).wi = 0x50 := by
    show (0x40 : Byte) + BitVec.ofNat 8 answers.length = 0x50
    rw [hlen]
    rfl
  have hend : { s.atReads.afterReads answers with
      ck := foldFrom (s.atReads.afterReads answers).ck (s.imageWords 0x50 0x7F), wi := 0x7F } =
      s.checksummed .ft230X answers := by
    have hsum : s.checksumOf .ft230X s.sz answers =
        foldFrom (s.atReads.afterReads answers).ck (s.imageWords 0x50 0x7F) := by
      simp only [State.checksumOf, State.foldedWords, if_true, hsz, foldFrom_append, ← h.seed]
      rfl
    have hindex : finalIndex .ft230X s.sz = 0x7F := by rw [hsz]; rfl
    have hidx : s.atReads.wi + BitVec.ofNat 8 16 - 1 = 0x4F := show (0x40 : Byte) + BitVec.ofNat 8 16 - 1 = 0x4F by decide
    unfold State.checksummed
    rw [hsum, hindex]
    simp only [State.afterReads, if_neg hne, hlen, hidx]
    rfl
  calc { s with inputs := ageInputs k (answerInputs answers) }.run (n + 99)
      = { s.atReads with inputs := ageInputs (k + 19) (answerInputs answers) }.run (n + 48 + 2 * answers.length) := by
        rw [hlen]
        refine (hloop.run_to_reads h.first (n + 80) ((leavesSteps_answerInputs answers).mono (by omega)).age).trans ?_
        rw [ageInputs_add]
        rfl
    _ = (s.atReads.afterReads answers).run (n + 48) := hreads
    _ = _ := (hloop.atReads.afterReads answers).run_from_reads hwi rfl n
    _ = (s.checksummed .ft230X answers).finishChecksum.run n := congrArg (fun t => State.run n t.finishChecksum) hend

/-- Every checksum with its device reads answered comes to the end of the loop within 128 steps (42_checksum.md R270). -/
theorem State.StartsChecksum.run_checksummed (h : s.StartsChecksum v) {answers : List (Half × Bool)}
    (hlen : answers.length = readsNeeded v s.sz) {k n : Nat} (hk : k ≤ 80) (hn : 129 ≤ n) :
    ∃ m, { s with inputs := ageInputs k (answerInputs answers) }.run n =
      (s.checksummed v answers).finishChecksum.run (m + 1) := by
  by_cases hlive : v = .ft230X ∧ s.sz = .b256
  · obtain ⟨rfl, hsz⟩ := hlive
    have hreads : answers.length = 16 := hlen.trans (if_pos ⟨rfl, hsz⟩)
    obtain ⟨m, rfl⟩ : ∃ m, n = m + 1 + 99 := ⟨n - 100, by omega⟩
    exact ⟨m, h.run_live hsz hreads hk (m + 1)⟩
  · obtain rfl : answers = [] := List.length_eq_zero_iff.1 (hlen.trans (if_neg hlive))
    have hquiet : { s with inputs := [] }.StartsChecksum v := ⟨h.busy, h.phase, h.variant, h.standard, h.seed, h.first⟩
    by_cases hv : v = .ft230X
    · subst hv
      have hsz : s.sz = .b128 := by
        cases hsz : s.sz with
        | b128 => rfl
        | b256 => exact absurd ⟨rfl, hsz⟩ hlive
      obtain ⟨m, rfl⟩ : ∃ m, n = m + 1 + 20 := ⟨n - 21, by omega⟩
      exact ⟨m, hquiet.run_skipped hsz rfl (m + 1)⟩
    · have hle := s.wordBound_le
      obtain ⟨m, rfl⟩ : ∃ m, n = s.wordBound + (m + 1 + 1) := ⟨n - s.wordBound - 2, by omega⟩
      exact ⟨m, hquiet.run_plain hv rfl (m + 1)⟩

end

/-! ### The trailer and the results -/

/-- A BUILD whose loop ends at `s`, after its trailer and its results are written (40_build.md R203, R204). -/
def State.withTrailer (s : State) : State :=
  buildResults { s.putImgHalf (BitVec.ofNat 8 (s.sz.bytes - 2)) s.ck with cksum := s.ck, phase := .b10 }

theorem State.run_withTrailer {s : State} (hb : s.status.busy = true) (hop : s.cmdv.op = opBuild) (hin : s.inputs = [])
    (n : Nat) : s.finishChecksum.run (n + 1) = s.withTrailer := by
  rw [State.finishChecksum_build s hop]
  exact State.run_results (s := { s.putImgHalf _ s.ck with cksum := s.ck, phase := .b10 }) hb rfl hin n

theorem toNat_byteOf_sub (z : ImgSize) {k : Nat} (hk : 0 < k) : (byteOf (z.bytes - k)).toNat = z.bytes - k := by
  have hle := ImgSize.bytes_le z
  rw [byteOf, BitVec.toNat_ofNat]
  omega

/-- The trailer is the last two bytes of the image, the low byte first (30_encoding.md R153). -/
theorem State.imgByte_withTrailer (s : State) (a : ImgAddr) :
    s.withTrailer.imgByte a =
      if a = byteOf (s.sz.bytes - 1) then s.ck.extractLsb' 8 8
      else if a = byteOf (s.sz.bytes - 2) then s.ck.extractLsb' 0 8 else s.imgByte a := by
  have hnext : (BitVec.ofNat 8 (s.sz.bytes - 2) : ImgAddr) + 1 = byteOf (s.sz.bytes - 1) := by
    cases s.sz <;> decide
  have hput := s.imgByte_putImgHalf (BitVec.ofNat 8 (s.sz.bytes - 2)) a s.ck
  rwa [hnext] at hput

/-- The checksum covers the image below its trailer (42_checksum.md R263). -/
theorem State.checksumOf_congr {s t : State} {v : Variant} {sz : ImgSize} {answers : List (Half × Bool)}
    (hparams : t.params = s.params) (himg : ∀ a : ImgAddr, a.toNat < sz.bytes - 2 → t.imgByte a = s.imgByte a) :
    t.checksumOf v sz answers = s.checksumOf v sz answers := by
  have hwords (lo hi : Nat) (hhi : 2 * hi ≤ sz.bytes - 2) : t.imageWords lo hi = s.imageWords lo hi := by
    refine List.map_congr_left fun i hi => ?_
    have hlt := List.mem_range'_1.1 hi
    have hle := ImgSize.bytes_le sz
    unfold State.imageWord
    rw [himg _ (by rw [BitVec.toNat_ofNat]; omega), himg _ (by rw [BitVec.toNat_ofNat]; omega)]
  unfold State.checksumOf State.foldedWords
  rw [hparams]
  cases sz with
  | b128 =>
    rw [hwords 0x00 0x12 (by decide), hwords 0 (ImgSize.b128.bytes / 2 - 1) (by decide)]
  | b256 =>
    rw [hwords 0x00 0x12 (by decide), hwords 0x50 0x7F (by decide), hwords 0 (ImgSize.b256.bytes / 2 - 1) (by decide)]

/-- The trailer and the results leave the sum of the image as it is. -/
theorem State.checksumOf_withTrailer (s : State) (v : Variant) (answers : List (Half × Bool)) :
    s.withTrailer.checksumOf v s.sz answers = s.checksumOf v s.sz answers := by
  refine State.checksumOf_congr rfl fun a ha => ?_
  have hhigh : a ≠ byteOf (s.sz.bytes - 1) := by
    rintro rfl
    rw [toNat_byteOf_sub s.sz (by decide)] at ha
    omega
  have hlow : a ≠ byteOf (s.sz.bytes - 2) := by
    rintro rfl
    rw [toNat_byteOf_sub s.sz (by decide)] at ha
    omega
  rw [s.imgByte_withTrailer a, if_neg hhigh, if_neg hlow]

/-- The trailer holds the sum of the finished image, low byte first (30_encoding.md R153). -/
theorem State.trailer_eq_checksumOf {s : State} {v : Variant} {answers : List (Half × Bool)}
    (hsum : s.ck = s.checksumOf v s.sz answers) :
    s.withTrailer.imgByte (byteOf (s.sz.bytes - 2)) = (s.withTrailer.checksumOf v s.sz answers).extractLsb' 0 8
      ∧ s.withTrailer.imgByte (byteOf (s.sz.bytes - 1)) = (s.withTrailer.checksumOf v s.sz answers).extractLsb' 8 8 := by
  have hne : byteOf (s.sz.bytes - 2) ≠ byteOf (s.sz.bytes - 1) := by cases s.sz <;> decide
  rw [s.checksumOf_withTrailer, ← hsum, s.imgByte_withTrailer, s.imgByte_withTrailer]
  exact ⟨by rw [if_neg hne, if_pos rfl], if_pos rfl⟩

theorem State.BuildPasses.startsChecksum {s : State} {v : Variant} (h : s.BuildPasses v) :
    (s.imageBuilt v).seedChecksum.StartsChecksum v := by
  obtain ⟨m, himage⟩ := h.imageBuilt_frame
  have hop : (CmdV.ofWord (encode .build)).op = opBuild := by rw [CmdV.ofWord_build]
  have hcode : (s.budgeted v).runCode = s.cfg.variantCode := if_pos hop
  rw [himage]
  refine ⟨rfl, rfl, ?_, h.standard, rfl, rfl⟩
  show Variant.ofCode? (s.budgeted v).runCode = some v
  rw [hcode, h.variant]

/-- The end of the checksum of a BUILD whose device reads `answers` answered. -/
def State.buildSummed (s : State) (v : Variant) (answers : List (Half × Bool)) : State :=
  (s.imageBuilt v).seedChecksum.checksummed v answers

/-- A BUILD that nothing ends early: the image, its checksum, its trailer and the results (40_build.md R170). -/
theorem State.BuildRuns.exec_build {s : State} {v : Variant} {answers : List (Half × Bool)} (h : s.BuildRuns v answers) :
    exec .build s = .next (s.buildSummed v answers).withTrailer := by
  obtain ⟨m, himage⟩ := h.toBuildPasses.imageBuilt_frame
  have hstart := h.toBuildPasses.startsChecksum
  have hl : leavesSteps 10 s.inputs := h.inputs ▸ (leavesSteps_answerInputs answers).mono (by decide)
  have hlen : answers.length = readsNeeded v (s.imageBuilt v).seedChecksum.sz := by
    rw [himage]
    exact h.answered
  obtain ⟨n, hrun⟩ := hstart.run_checksummed hlen (k := 10) (n := 290) (by decide) (by decide)
  have hop : (s.buildSummed v answers).cmdv.op = opBuild := by
    show (s.imageBuilt v).cmdv.op = opBuild
    rw [himage]
    show (CmdV.ofWord (encode .build)).op = opBuild
    rw [CmdV.ofWord_build]
  have hend : (startBuild (s.accept (encode .build))).run seqFuel = (s.buildSummed v answers).withTrailer := by
    rw [show seqFuel = 290 + 10 from rfl, h.toBuildPasses.run_seeded 290 hl, h.inputs, hrun]
    exact State.run_withTrailer (s := s.buildSummed v answers) hstart.busy hop rfl n
  rw [exec_of_ready .build h.ready, commandStart, hend]

/-- Settles O28: the trailer holds the sum of the image below it, which the trailer and the results do not change. -/
theorem trailerIsLittleEndian : Obligations.TrailerIsLittleEndian := by
  intro s v answers h
  have hsz : (s.buildSummed v answers).sz = s.buildSize := by
    obtain ⟨m, himage⟩ := h.toBuildPasses.imageBuilt_frame
    show (s.imageBuilt v).sz = s.buildSize
    rw [himage]
    rfl
  have hsum : (s.buildSummed v answers).ck = (s.buildSummed v answers).checksumOf v (s.buildSummed v answers).sz answers :=
    (s.imageBuilt v).seedChecksum.checksummed_ck v answers
  exact ⟨_, h.exec_build, hsz ▸ State.trailer_eq_checksumOf hsum⟩

end Sys2Proof.Machine
end

section
/-! SUPPORT. The one refusal (40_build.md R194). -/

namespace Sys2Proof.Machine

/-- A command is refused only for its parameter set (40_build.md R194). -/
theorem exec_refused {i : Instr} {s : State} {r : Refusal} (h : exec i s = .refused r) :
    r = .illFormedParameters ∧ s.params.check = false := by
  rcases exec_cases i s with ⟨-, heq⟩ | ⟨-, -, heq⟩ | ⟨-, -, hbad, heq⟩ | ⟨-, heq⟩ <;> rw [heq] at h <;> cases h
  exact ⟨rfl, hbad⟩

/-- An illegal word, too, is refused only for the parameter set (40_build.md R194). -/
theorem issueIllegal_refused {w : Word} {s : State} {r : Refusal} (h : issueIllegal w s = .refused r) :
    r = .illFormedParameters ∧ s.params.check = false := by
  unfold issueIllegal at h
  rcases issue_cases w (fun t => t.endWith .badCommand) s with ⟨-, heq⟩ | ⟨-, -, heq⟩ | ⟨-, -, hbad, heq⟩ | ⟨-, heq⟩ <;>
    rw [heq] at h <;> cases h
  exact ⟨rfl, hbad⟩

theorem arrive_refused {e : Input} {s : State} {r : Refusal} (h : arrive e s = .refused r) :
    r = .illFormedParameters ∧ s.params.check = false := by
  rcases arrive_cases e s with ⟨a, w, -, -, heq⟩ | ⟨a, w, -, -, heq⟩ | ⟨a, -, heq⟩ | ⟨b, -, heq⟩ | ⟨v, -, heq⟩
    | ⟨d, q, -, heq⟩ <;> rw [heq] at h
  case inl =>
    unfold writeCmd at h
    split at h
    · exact exec_refused h
    · exact issueIllegal_refused h
  all_goals cases h

/-- Settles O52: of all a step can do only a command word that lands is refused, and only for its parameter set. -/
theorem onlyIllFormedParametersAreRefused : Obligations.OnlyIllFormedParametersAreRefused := by
  refine ⟨fun s r h => ?_, fun i s hrst hbusy hbad => ?_⟩
  · rcases step_cases s with ⟨-, -, heq⟩ | ⟨-, -, heq⟩ | ⟨-, -, heq⟩ | ⟨-, a, rest, -, heq⟩ <;> rw [heq] at h
    case inr.inr.inr => exact arrive_refused (s := { s with inputs := rest }) h
    all_goals cases h
  · rcases exec_cases i s with ⟨hr, -⟩ | ⟨-, hb, -⟩ | ⟨-, -, -, heq⟩ | ⟨hready, -⟩
    · simp [hrst] at hr
    · simp [hbusy] at hb
    · exact heq
    · simp [hready.paramsOk] at hbad

end Sys2Proof.Machine
end

section
/-! SUPPORT. The two checks of B_CHECK and the budget, where a BUILD ends early (40_build.md R170..R174). -/

namespace Sys2Proof.Machine

/-- The codes 8..15 name no variant (30_encoding.md R140). -/
theorem Variant.ofCode?_of_le {c : Nibble} (h : 8 ≤ c.toNat) : Variant.ofCode? c = none := by
  revert h
  revert c
  decide

/-- A BUILD whose check fails ends in one step (40_build.md R170). -/
theorem exec_build_of_checkFails {s : State} (hs : s.Ready) (hin : s.inputDue = false) {code : ErrorCode}
    (hcheck : ∀ t : State, t.cfg = s.cfg → buildCheck t = t.endWith code) :
    exec .build s = .next ({ s.accept (encode .build) with inputs := s.countDown.inputs }.endWith code) := by
  have hrun : (startBuild (s.accept (encode .build))).canRun = true := by
    show (true && !s.inputDue) = true
    rw [hin]
    rfl
  have htick : (startBuild (s.accept (encode .build))).tick = buildCheck (startBuild (s.accept (encode .build))).countDown := rfl
  rw [exec_of_ready .build hs, commandStart, seqFuel, State.run_succ, if_pos hrun, htick,
    hcheck (startBuild (s.accept (encode .build))).countDown rfl,
    State.run_idle _ _ rfl]
  rfl

/-- Settles O17: B_CHECK looks at CFG_VALID first and at the variant code second, and a failure ends the command there. -/
theorem buildChecksConfigurationThenVariant : Obligations.BuildChecksConfigurationThenVariant := by
  refine fun s hs hin => ⟨fun hvalid => ?_, fun hvalid hcode => ?_⟩
  · rw [exec_build_of_checkFails hs hin (code := .noConfiguration) fun t ht => if_pos (ht ▸ hvalid)]
    rfl
  · have hunknown (t : State) (ht : t.cfg = s.cfg) : buildCheck t = t.endWith .unknownChip := by
      simp [buildCheck, ht, hvalid, Variant.ofCode?_of_le hcode]
    rw [exec_build_of_checkFails hs hin hunknown]
    rfl

/-- A BUILD that has passed its check, after step 1 (40_build.md R171, R172). -/
def State.sizedBuild (s : State) : State :=
  { s.accept (encode .build) with chipid := s.devChipid, sz := s.buildSize, phase := .b2 }

/-- A BUILD whose configuration and variant pass the check comes to step 2, with no input to come. -/
theorem State.run_sizedBuild {s : State} {v : Variant} (hvalid : s.cfg.cfgValid = true)
    (hv : Variant.ofCode? s.cfg.variantCode = some v) (hin : s.inputs = []) (n : Nat) :
    (startBuild (s.accept (encode .build))).run (n + 2) = s.sizedBuild.run n := by
  have hcheck : (startBuild (s.accept (encode .build))).act = (s.accept (encode .build)).goto .b1 := by
    show buildCheck _ = _
    simp only [buildCheck, startBuild, State.goto_cfg, State.accept_cfg, hvalid, hv]
    rfl
  calc (startBuild (s.accept (encode .build))).run (n + 2)
      = (startBuild (s.accept (encode .build))).act.run (n + 1) := State.run_quiet _ (n + 1) rfl Phase.noConfusion hin
    _ = ((s.accept (encode .build)).goto .b1).run (n + 1) := by rw [hcheck]
    _ = s.sizedBuild.run n := State.run_quiet ((s.accept (encode .build)).goto .b1) n rfl Phase.noConfusion hin

/-- Step 2 of such a BUILD (40_build.md R173). -/
theorem State.run_buildBudget {s : State} {v : Variant} (hv : Variant.ofCode? s.cfg.variantCode = some v)
    (hin : s.inputs = []) (n : Nat) : s.sizedBuild.run (n + 1) = (buildBudget v s.sizedBuild).run n := by
  have hact : s.sizedBuild.act = buildBudget v s.sizedBuild := State.withVariant_of_known (t := s.sizedBuild) hv buildBudget
  rw [← hact]
  exact State.run_quiet s.sizedBuild n rfl Phase.noConfusion hin

/-- Settles O18: B_CHECK passes, step 1 samples and sizes, and step 2 ends the command on the negative budget. -/
theorem budgetFailureChangesNothingVisible : Obligations.BudgetFailureChangesNothingVisible := by
  intro s v hs hin hvalid hv hbase
  have hover : userArea s.params v s.cfg < 0 := by
    unfold userArea Params.base
    omega
  have hend : buildBudget v s.sizedBuild = { s.sizedBuild with ua := userArea s.params v s.cfg }.endWith .sizeExceeded := by
    rw [buildBudget_eq]
    exact if_pos hover
  rw [exec_of_ready .build hs, commandStart, show seqFuel = 297 + 1 + 2 from rfl, State.run_sizedBuild hvalid hv hin,
    State.run_buildBudget hv hin, hend, State.run_idle _ _ rfl]
  rfl

end Sys2Proof.Machine
end

section
/-! SUPPORT. DEV_CHIPID past step 1 (40_build.md R172). -/

namespace Sys2Proof.Machine

/-- Another DEV_CHIPID level, and the mark that it moved. -/
def State.withChipidInput (s : State) (value : Byte) (moved : Bool) : State :=
  { s with devChipid := value, chipidMoved := moved }

/-- The phases past step 1, and those of the other commands. -/
def Phase.pastSample (p : Phase) : Bool := !(p == .bCheck || p == .b1)

/-- No step past step 1 looks at DEV_CHIPID (40_build.md R172). -/
theorem State.act_withChipidInput {s : State} (hp : s.phase.pastSample = true) (value : Byte) (moved : Bool) :
    (s.withChipidInput value moved).act = s.act.withChipidInput value moved := by
  by_cases hk : s.phase = .kWait
  · have hphase : (s.withChipidInput value moved).phase = .kWait := hk
    simp only [State.act, hphase, hk]
    rcases s.waitStep_cases with ⟨k, data, err, rest, hin, heq⟩ | ⟨hno, heq⟩
    · have hin' : (s.withChipidInput value moved).inputs = ⟨k, .deviceAck data err⟩ :: rest := hin
      rw [heq]
      simp only [State.waitStep, hin', State.takeAnswer_eq]
      rfl
    · rcases (s.withChipidInput value moved).waitStep_cases with ⟨k, data, err, rest, hin, -⟩ | ⟨-, heq'⟩
      · simp [State.ackNext, show s.inputs = ⟨k, .deviceAck data err⟩ :: rest from hin] at hno
      · rw [heq, heq']
  · have h1 : s.phase ≠ .b1 := fun h => by simp [h, Phase.pastSample] at hp
    calc (s.withChipidInput value moved).act
        = s.act.withHostSide { s.hostSide with devChipid := value, chipidMoved := moved } :=
          s.act_withHostSide { s.hostSide with devChipid := value, chipidMoved := moved } h1 hk
      _ = s.act.withChipidInput value moved := by rw [← State.act_hostSide h1 hk]; rfl

/-- The sequencer does not come back to step 1 (40_build.md R170). -/
theorem State.act_pastSample {s : State} (hp : s.phase.pastSample = true) : s.act.phase.pastSample = true := by
  have known {k : Variant → State → State} (hk : ∀ v, (k v s).phase.pastSample = true) :
      (s.withVariant k).phase.pastSample = true := by
    rcases s.withVariant_cases k with ⟨-, heq⟩ | ⟨v, -, heq⟩ <;> rw [heq]
    · rfl
    · exact hk v
  cases h : s.phase with
  | bCheck | b1 => simp [h, Phase.pastSample] at hp
  | b3 | b4 | b5 | b6 | b7 =>
    rcases State.act_of_buildsImage (s := s) (by rw [h]; rfl) with ⟨-, heq⟩ | ⟨m, c, drive, cbus, heq⟩ <;> rw [heq]
    · rfl
    · rw [h]
      rfl
  | b2 =>
    simp only [State.act, h]
    refine known fun v => ?_
    rw [buildBudget_eq]
    split <;> rfl
  | b8 =>
    simp only [State.act, h]
    refine known fun v => ?_
    rcases buildUser_cases v s with ⟨-, heq⟩ | ⟨-, -, heq⟩ | ⟨-, -, heq⟩ <;> rw [heq] <;> rfl
  | idle | b9 | b10 | kLoop | kWait =>
    have hnext := (State.act_cur_of_pastImage (s := s) (by rw [h]; rfl)).1
    revert hnext
    cases s.act.phase <;> simp [Phase.pastImage, Phase.pastSample]
  | eRun => simp [State.act, h, encodeRun, Phase.pastSample]

/-- Nor does a run past step 1. -/
theorem State.run_withChipidInput {s : State} (hp : s.phase.pastSample = true) (value : Byte) (moved : Bool) (n : Nat) :
    (s.withChipidInput value moved).run n = (s.run n).withChipidInput value moved := by
  induction n generalizing s with
  | zero => rfl
  | succ n ih =>
    have hcan : (s.withChipidInput value moved).canRun = s.canRun := rfl
    have htick : (s.withChipidInput value moved).tick = s.tick.withChipidInput value moved
        ∧ s.tick.phase.pastSample = true := by
      have hphase : (s.withChipidInput value moved).phase = s.phase := rfl
      unfold State.tick
      rw [hphase]
      split
      · exact ⟨State.act_withChipidInput hp value moved, State.act_pastSample hp⟩
      · exact ⟨State.act_withChipidInput (s := s.countDown) hp value moved, State.act_pastSample (s := s.countDown) hp⟩
    rw [State.run_succ, State.run_succ, hcan]
    split
    · rw [htick.1, ih htick.2]
    · rfl

/-- Settles O36: DEV_CHIPID and the mark that it moved pass through a run past step 1 unread. -/
theorem chipidSampledOnce : Obligations.ChipidSampledOnce := by
  intro s value n hcheck hsize
  have hp : s.phase.pastSample = true := by simp [Phase.pastSample, hcheck, hsize]
  exact State.run_withChipidInput hp value (driveChipid value s).chipidMoved n

end Sys2Proof.Machine
end

section
/-! SUPPORT. The image as lists of writes: what a step that stores bytes leaves of every byte, and the string table of steps 5 and
6 (40_build.md R179..R185). -/

namespace Sys2Proof.Machine

/-- `t` holds the image of `s` after the writes `ws`, in their order: "a later write wins" (40_build.md R182). -/
def State.Wrote (s t : State) (ws : List (Nat × Byte)) : Prop :=
  ∀ a : ImgAddr, t.imgByte a = (lastWrite ws a.toNat).getD (s.imgByte a)

theorem State.Wrote.refl (s : State) : s.Wrote s [] := fun _ => rfl

theorem State.Wrote.trans {s t u : State} {ws xs : List (Nat × Byte)} (h : s.Wrote t ws) (k : t.Wrote u xs) :
    s.Wrote u (ws ++ xs) := by
  intro a
  rw [k a, h a, lastWrite_append]
  cases lastWrite xs a.toNat <;> rfl

/-- Two states with one image hold the same writes. -/
theorem State.Wrote.congr {s t u : State} {ws : List (Nat × Byte)} (h : s.Wrote t ws) (hi : u.img = t.img)
    (hg : u.imgGen = t.imgGen) : s.Wrote u ws := fun a => (State.imgByte_congr hi hg a).trans (h a)

theorem State.wrote_putImg (s : State) (o : ImgAddr) (v : Byte) : s.Wrote (s.putImg o v) [(o.toNat, v)] := by
  intro a
  rw [State.imgByte_putImg, lastWrite_single]
  by_cases h : a = o
  · simp [h]
  · rw [if_neg h, if_neg fun heq => h (BitVec.eq_of_toNat_eq heq.symm)]
    rfl

/-! ### Bytes at the cursor -/

/-- `put` of one byte after another (40_build.md R179). -/
def State.putBytes (s : State) (bytes : List Byte) : State := bytes.foldl State.putNext s

/-- Bytes put at the cursor change the image, and advance it. -/
theorem State.putBytes_frame (s : State) (bytes : List Byte) :
    ∃ m, s.putBytes bytes = { s with img := m, cur := s.cur + BitVec.ofNat 16 bytes.length } := by
  induction bytes generalizing s with
  | nil => exact ⟨s.img, by simp [State.putBytes]⟩
  | cons b bytes ih =>
    obtain ⟨m, hm⟩ := ih (s.putNext b)
    refine ⟨m, ?_⟩
    have hcur : s.cur + 1 + BitVec.ofNat 16 bytes.length = s.cur + BitVec.ofNat 16 (bytes.length + 1) := by
      rw [BitVec.add_assoc, Nat.add_comm, BitVec.ofNat_add]
      rfl
    rw [List.length_cons, ← hcur]
    exact hm

theorem wrappedWrites_append (size start : Nat) (xs ys : List Byte) :
    wrappedWrites size start (xs ++ ys) = wrappedWrites size start xs ++ wrappedWrites size (start + xs.length) ys := by
  have hshift : ys.zipIdx xs.length = (ys.zipIdx).map fun b => (b.1, xs.length + b.2) := by
    rw [List.zipIdx_eq_map_add]
  simp only [wrappedWrites, List.zipIdx_append, List.map_append, Nat.zero_add, hshift, List.map_map, Nat.add_assoc]
  rfl

/-- A raw position and its 16-bit cursor name the same image byte (40_build.md R179). -/
theorem State.cursorAddr_of_cur {s : State} {start : Nat} (h : s.cur = BitVec.ofNat 16 start) :
    s.cursorAddr.toNat = start % s.sz.bytes := by
  rw [State.cursorAddr_toNat, h, BitVec.toNat_ofNat]
  cases s.sz with
  | b128 => exact Nat.mod_mod_of_dvd start (show 128 ∣ 2 ^ 16 by decide)
  | b256 => exact Nat.mod_mod_of_dvd start (show 256 ∣ 2 ^ 16 by decide)

/-- Byte `k` goes to `(start + k) mod SZ` (40_build.md R179, R184). -/
theorem State.wrote_putBytes {s : State} {start : Nat} (h : s.cur = BitVec.ofNat 16 start) (bytes : List Byte) :
    s.Wrote (s.putBytes bytes) (wrappedWrites s.sz.bytes start bytes) := by
  induction bytes generalizing s start with
  | nil => exact State.Wrote.refl s
  | cons b bytes ih =>
    have hcur : (s.putNext b).cur = BitVec.ofNat 16 (start + 1) := by
      rw [State.putNext_cur, h, BitVec.ofNat_add]
      rfl
    have hfirst : s.Wrote (s.putNext b) [((start + 0) % s.sz.bytes, b)] := by
      rw [Nat.add_zero, ← State.cursorAddr_of_cur h]
      exact (s.wrote_putImg s.cursorAddr b).congr rfl rfl
    have hall := hfirst.trans (ih hcur)
    rw [show b :: bytes = [b] ++ bytes from rfl, wrappedWrites_append]
    exact hall

/-! ### Descriptors -/

theorem State.length_chars (s : State) (r : RamId) (n : Nat) : (s.chars r n).length = n := by simp [State.chars]

theorem length_descriptorBytes (chars : List Byte) : (descriptorBytes chars).length = 2 * chars.length + 2 := by
  simp [descriptorBytes, Nat.mul_comm]

theorem State.ramByte_putNext {r : RamId} (hr : r ≠ .img) (s : State) (b : Byte) (i : Nat) :
    (s.putNext b).ramByte r i = s.ramByte r i := by
  cases r with
  | img => exact absurd rfl hr
  | _ => rfl

/-- The characters of a string stay in their RAM while the image is written. -/
theorem State.putChars_eq_putBytes {r : RamId} (hr : r ≠ .img) (l : List Nat) (s : State) :
    l.foldl (fun t j => (t.putNext (t.ramByte r j)).putNext 0x00) s =
      s.putBytes ((l.map (s.ramByte r)).flatMap fun ch => [ch, 0x00]) := by
  induction l generalizing s with
  | nil => rfl
  | cons j l ih =>
    have hchars : l.map (((s.putNext (s.ramByte r j)).putNext 0x00).ramByte r) = l.map (s.ramByte r) :=
      List.map_congr_left fun i _ => (State.ramByte_putNext hr _ _ i).trans (State.ramByte_putNext hr _ _ i)
    rw [List.foldl_cons, ih, hchars]
    rfl

/-- A descriptor is its bytes put one after another (40_build.md R180; 30_encoding.md R143). -/
theorem State.putDesc_eq_putBytes {r : RamId} (hr : r ≠ .img) (s : State) (n : Nat) :
    s.putDesc r n = s.putBytes (descriptorBytes (s.chars r n)) := by
  have hchars : ((s.putNext (byteOf (2 * n + 2))).putNext 0x03).chars r n = s.chars r n :=
    List.map_congr_left fun i _ => (State.ramByte_putNext hr _ _ i).trans (State.ramByte_putNext hr _ _ i)
  unfold State.putDesc
  rw [State.putChars_eq_putBytes hr]
  show State.putBytes _ ((State.chars _ r n).flatMap _) = _
  rw [hchars, descriptorBytes, State.length_chars]
  rfl

/-! ### The string table -/

/-- `t` is `s` after the writes `ws` of the string table, with the raw cursor at `pos`. -/
structure State.TableAt (s t : State) (pos : Nat) (ws : List (Nat × Byte)) : Prop where
  wrote : s.Wrote t ws
  frame : ∃ m p, t = { s with img := m, phase := p, cur := BitVec.ofNat 16 pos }

section
variable {s t : State} {pos : Nat} {ws : List (Nat × Byte)}

theorem State.TableAt.cur (h : s.TableAt t pos ws) : t.cur = BitVec.ofNat 16 pos := by
  obtain ⟨m, p, rfl⟩ := h.frame
  rfl

/-- The table begins at `STR_START[v]` (40_build.md R181). -/
theorem State.tableAt_start (s : State) (c : Half) : s.TableAt { s with cur := c } c.toNat [] :=
  ⟨State.Wrote.refl s, s.img, s.phase, by rw [BitVec.ofNat_toNat, BitVec.setWidth_eq]⟩

/-- A header slot (40_build.md R181). -/
theorem State.TableAt.putImg (h : s.TableAt t pos ws) (o : ImgAddr) (v : Byte) :
    s.TableAt (t.putImg o v) pos (ws ++ [(o.toNat, v)]) where
  wrote := h.wrote.trans (t.wrote_putImg o v)
  frame := by
    obtain ⟨m, p, rfl⟩ := h.frame
    exact ⟨_, p, rfl⟩

/-- Bytes of the table (40_build.md R179). -/
theorem State.TableAt.putBytes (h : s.TableAt t pos ws) (bytes : List Byte) :
    s.TableAt (t.putBytes bytes) (pos + bytes.length) (ws ++ wrappedWrites s.sz.bytes pos bytes) where
  wrote := by
    have hbytes := State.wrote_putBytes h.cur bytes
    obtain ⟨m, p, hframe⟩ := h.frame
    rw [show t.sz = s.sz by rw [hframe]] at hbytes
    exact h.wrote.trans hbytes
  frame := by
    obtain ⟨n, hput⟩ := t.putBytes_frame bytes
    obtain ⟨m, p, rfl⟩ := h.frame
    exact ⟨n, p, by rw [hput, BitVec.ofNat_add]⟩

/-- A string with its two header slots, in the order of 40_build.md R182. -/
theorem State.TableAt.putString (h : s.TableAt t pos ws) (o l : ImgAddr) {b slot : Byte} (hslot : b = slot) {r : RamId}
    (hr : r ≠ .img) (n : Nat) :
    s.TableAt (t.putString o l b r n) (pos + (2 * n + 2))
      (ws ++ [(o.toNat, slot)] ++ wrappedWrites s.sz.bytes pos (descriptorBytes (s.chars r n))
        ++ [(l.toNat, byteOf (2 * n + 2))]) := by
  subst hslot
  have hchars : (t.putImg o b).chars r n = s.chars r n := by
    obtain ⟨m, p, rfl⟩ := h.frame
    cases r with
    | img => exact absurd rfl hr
    | _ => rfl
  have hstring := ((h.putImg o b).putBytes (descriptorBytes (s.chars r n))).putImg l (byteOf (2 * n + 2))
  rw [length_descriptorBytes, State.length_chars] at hstring
  unfold State.putString
  rw [State.putDesc_eq_putBytes hr, hchars]
  exact hstring

theorem State.TableAt.goto (h : s.TableAt t pos ws) (p : Phase) : s.TableAt (t.goto p) pos ws where
  wrote := h.wrote.congr rfl rfl
  frame := by
    obtain ⟨m, q, rfl⟩ := h.frame
    exact ⟨m, p, rfl⟩

/-- The manufacturer's offset slot (40_build.md R181, R183). -/
theorem State.TableAt.mfrSlot (h : s.TableAt t pos ws) :
    t.mfrSlot = byteOf (match s.params.mfrOffsetMode with | .raw => pos | .masked => pos % s.sz.bytes) := by
  have hcursor := State.cursorAddr_of_cur h.cur
  obtain ⟨m, p, rfl⟩ := h.frame
  unfold State.mfrSlot
  cases hmode : s.params.mfrOffsetMode with
  | raw => exact BitVec.setWidth_ofNat_of_le (by decide) pos
  | masked => exact BitVec.eq_of_toNat_eq (by rw [byteOf, BitVec.toNat_ofNat, ← hcursor]; exact (Nat.mod_eq_of_lt (BitVec.isLt _)).symm)

/-- The other two offset slots (40_build.md R181). -/
theorem State.TableAt.markedSlot (h : s.TableAt t pos ws) : t.markedSlot = byteOf (pos ||| 0x80) := by
  unfold State.markedSlot
  rw [h.cur, byteOf, ← BitVec.setWidth_ofNat_of_le (show 8 ≤ 16 by decide), BitVec.ofNat_or]
  rfl

end

theorem hasPnp_iff (v : Variant) : hasPnp v = true ↔ ¬(v = .am ∨ v = .bm) := by simp [hasPnp]

/-- Step 6 (40_build.md R185). -/
theorem State.TableAt.buildPnp {s t : State} {pos : Nat} {ws : List (Nat × Byte)} (h : s.TableAt t pos ws) (v : Variant) :
    s.TableAt (Machine.buildPnp v t) (pos + if hasPnp v then 3 else 0)
      (ws ++ if v = .am ∨ v = .bm then [] else
          wrappedWrites s.sz.bytes pos [0x02, 0x03, if s.cfg.isNotPnp then 0x01 else 0x00]) := by
  have hcfg : t.cfg = s.cfg := by
    obtain ⟨m, p, rfl⟩ := h.frame
    rfl
  unfold Machine.buildPnp
  by_cases hv : v = .am ∨ v = .bm
  · have hno : ¬hasPnp v = true := fun hyes => (hasPnp_iff v).1 hyes hv
    rw [if_neg hno, if_neg hno, if_pos hv, List.append_nil]
    exact h.goto .b7
  · have hyes := (hasPnp_iff v).2 hv
    rw [if_pos hyes, if_pos hyes, if_neg hv, hcfg]
    exact (h.putBytes [0x02, 0x03, flagByte s.cfg.isNotPnp]).goto .b7

/-- Steps 5 and 6 make the listed writes, and leave the cursor `L` bytes on (40_build.md R181, R184, R185). -/
theorem tableAt_table (s : State) (v : Variant) :
    s.TableAt (buildPnp v (buildStrings v s)) ((s.params.strStart v).toNat + tableLength v s.cfg)
      (s.tableWrites v s.sz.bytes) := by
  have hstart := s.tableAt_start (s.params.strStart v)
  have hmfr := hstart.putString 0x0E 0x0F hstart.mfrSlot (r := .strM) (by decide) s.cfg.mfrLen
  have hprod := hmfr.putString 0x10 0x11 hmfr.markedSlot (r := .strP) (by decide) s.cfg.prodLen
  have hser := hprod.putString 0x12 0x13 hprod.markedSlot (r := .strS) (by decide) s.cfg.serLen
  have htable := (hser.goto .b6).buildPnp v
  have hend : (s.params.strStart v).toNat + (2 * s.cfg.mfrLen + 2) + (2 * s.cfg.prodLen + 2) + (2 * s.cfg.serLen + 2)
      + (if hasPnp v then 3 else 0) = (s.params.strStart v).toNat + tableLength v s.cfg := by
    unfold tableLength ConfigRegs.totalLen
    omega
  rw [hend] at htable
  simp only [List.append_assoc, List.nil_append, List.cons_append] at htable
  simp only [State.tableWrites, List.append_assoc, List.nil_append, List.cons_append]
  exact htable

/-- Settles O34: from B5 the two steps are steps 5 and 6, which make the listed writes one after another. -/
theorem stringTableWrites : Obligations.StringTableWrites := by
  intro s v hp hv
  have hstrings : s.act = buildStrings v s := by
    rw [State.act, hp]
    exact State.withVariant_of_known hv _
  obtain ⟨m, hframe⟩ := buildStrings_frame v s
  have hpnp : s.act.act = buildPnp v (buildStrings v s) := by
    rw [hstrings, State.act, show (buildStrings v s).phase = .b6 by rw [hframe]]
    exact State.withVariant_of_known (by rw [hframe]; exact hv) _
  have htable := tableAt_table s v
  rw [hpnp]
  refine ⟨?_, by rw [htable.cur, BitVec.toNat_ofNat], htable.wrote⟩
  obtain ⟨n, hend⟩ := buildPnp_frame v (buildStrings v s)
  rw [hend]

end Sys2Proof.Machine
end

section
/-! SUPPORT. The image after the steps 3..6, byte by byte: step 3's zeros, and the last of the writes of the steps 4..6
(40_build.md R175..R185). -/

namespace Sys2Proof.Machine

/-! ### Step 3 -/

/-- The zero fill up to byte `n` (40_build.md R175). -/
theorem imgByte_zeroFill (p : Params) (v : Variant) (s : State) {n : Nat} (hn : n ≤ 256) (a : ImgAddr) :
    ((List.range n).foldl
        (fun t b => if keptByStep3 p v b then t else t.putImg (BitVec.ofNat 8 b) 0x00) s).imgByte a =
      if a.toNat < n ∧ keptByStep3 p v a.toNat = false then 0x00 else s.imgByte a := by
  induction n with
  | zero => rfl
  | succ n ih =>
    have hlast : (BitVec.ofNat 8 n).toNat = n := by rw [BitVec.toNat_ofNat]; omega
    rw [List.range_succ, List.foldl_append, List.foldl_cons, List.foldl_nil]
    by_cases han : a.toNat = n
    · have ha : a = BitVec.ofNat 8 n := BitVec.eq_of_toNat_eq (han.trans hlast.symm)
      cases hkept : keptByStep3 p v n with
      | true => rw [if_pos rfl, ih (by omega)]; simp [han, hkept]
      | false => rw [if_neg (by decide), State.imgByte_putImg, if_pos ha, han]; simp [hkept]
    · have hne : a ≠ BitVec.ofNat 8 n := fun h => han (h ▸ hlast)
      have hbound : a.toNat < n + 1 ↔ a.toNat < n := by omega
      simp only [hbound]
      rw [← ih (by omega)]
      split
      · rfl
      · exact State.imgByte_putImg_of_ne _ _ hne

/-- Step 3 (40_build.md R175). -/
theorem imgByte_buildZero (v : Variant) (s : State) (a : ImgAddr) :
    (buildZero v s).imgByte a =
      if a.toNat < s.sz.bytes ∧ keptByStep3 s.params v a.toNat = false then 0x00 else s.imgByte a :=
  imgByte_zeroFill s.params v s (ImgSize.bytes_le s.sz) a

/-- The factory window at the default tables (40_build.md R175). -/
theorem keptByStep3_of_standard {p : Params} (hp : p.tables = SourceTables.standard) (v : Variant) (a : Nat) :
    keptByStep3 p v a = false ↔ ¬(v = .ft230X ∧ 0x80 ≤ a ∧ a < 0xA0) := by
  simp only [keptByStep3, hp, SourceTables.standard, Bool.and_eq_false_iff, beq_eq_false_iff_ne, decide_eq_false_iff_not]
  tauto

/-! ### No step writes at or above SZ -/

/-- The string table's bytes all lie below SZ (40_build.md R179). -/
theorem State.tableSpares_of_high {s : State} {a : ImgAddr} (ha : s.sz.bytes ≤ a.toNat) (n : Nat) :
    s.TableSpares n a (s.imgByte a) := by
  refine ⟨rfl, fun k _ => ?_⟩
  have hpos : 0 < s.sz.bytes := Nat.lt_of_lt_of_le (by decide) (ImgSize.bytes_ge s.sz)
  have hlt := Nat.mod_lt (s.cur.toNat + k) hpos
  omega

/-- Step 8 copies nothing past SZ (40_build.md R200). -/
theorem imgByte_buildUser_of_high {v : Variant} {s : State} {a : ImgAddr} (ha : s.sz.bytes ≤ a.toNat) :
    (buildUser v s).imgByte a = s.imgByte a := by
  rcases buildUser_cases v s with ⟨hnone, -⟩ | ⟨-, -, heq⟩ | ⟨-, hfits, -⟩
  · exact imgByte_buildUser_of_off (by omega)
  · rw [heq, State.userWarnings_eq]
    rfl
  · exact imgByte_buildUser_of_off (by omega)

/-- Every phase leaves the bytes at or above SZ (40_build.md R175). -/
theorem State.act_imgByte_of_high {s : State} {a : ImgAddr} (hcheck : s.params.check = true) (ha : s.sz.bytes ≤ a.toNat) :
    s.act.imgByte a = s.imgByte a := by
  have hhigh : 0x80 ≤ a.toNat := (ImgSize.bytes_ge s.sz).trans ha
  have known {k : Variant → State → State} (hk : ∀ v, (k v s).imgByte a = s.imgByte a) :
      (s.withVariant k).imgByte a = s.imgByte a := by
    rcases s.withVariant_cases k with ⟨-, heq⟩ | ⟨v, -, heq⟩ <;> rw [heq]
    · rfl
    · exact hk v
  cases hp : s.phase with
  | idle | b9 | b10 | kLoop | kWait => exact (State.act_imgByte_of_pastImage (by rw [hp]; rfl) (.inr ha)).2
  | eRun => rw [State.act, hp]; rfl
  | bCheck =>
    simp only [State.act, hp]
    rcases buildCheck_cases s with ⟨code, -, heq⟩ | ⟨-, -, heq⟩ <;> rw [heq] <;> rfl
  | b1 =>
    simp only [State.act, hp]
    obtain ⟨id, n, heq⟩ := buildSize_frame s
    rw [heq]
    rfl
  | b2 =>
    simp only [State.act, hp]
    refine known fun v => ?_
    rw [buildBudget_eq]
    split <;> rfl
  | b3 =>
    simp only [State.act, hp]
    exact known fun v => imgByte_buildZero_of_kept (.inl ha)
  | b4 =>
    simp only [State.act, hp]
    exact known fun v => imgByte_buildFixed_of_high (Params.offsetsFit_of_check hcheck) hhigh
  | b5 =>
    simp only [State.act, hp]
    exact known fun v => (tableSpares_buildStrings (n := 0) hhigh
      (State.tableSpares_of_high (s := { s with cur := s.params.strStart v }) ha _)).holds
  | b6 =>
    simp only [State.act, hp]
    exact known fun v => (tableSpares_buildPnp (State.tableSpares_of_high ha _)).holds
  | b7 =>
    simp only [State.act, hp]
    exact known fun v => imgByte_buildChip_of_high hcheck (by omega)
  | b8 =>
    simp only [State.act, hp]
    exact known fun v => imgByte_buildUser_of_high ha

/-- Settles O33: the fill is a fold over the bytes below SZ, and every phase keeps the others. -/
theorem zeroFillSparesTheFactoryWindow : Obligations.ZeroFillSparesTheFactoryWindow := by
  refine ⟨fun s v hp hv htables => ?_, fun s a hcheck ha => State.act_imgByte_of_high hcheck ha⟩
  have hact : s.act = buildZero v s := by
    rw [State.act, hp]
    exact State.withVariant_of_known hv _
  obtain ⟨m, hframe⟩ := buildZero_frame v s
  rw [hact]
  refine ⟨by rw [hframe], fun a => ?_⟩
  simp only [imgByte_buildZero, keptByStep3_of_standard htables]

/-! ### Step 4 -/

/-- A 16-bit field, low byte first (20_memory.md R102). -/
theorem State.wrote_putImgHalf (s : State) (o : ImgAddr) (v : Half) :
    s.Wrote (s.putImgHalf o v) [(o.toNat, byteOf v.toNat), ((o + 1).toNat, byteOf (v.toNat / 256))] := by
  have hlow : v.extractLsb' 0 8 = byteOf v.toNat := by
    apply BitVec.eq_of_toNat_eq
    rw [toNat_extractLsb'_zero, byteOf, BitVec.toNat_ofNat]
  have hhigh : v.extractLsb' 8 8 = byteOf (v.toNat / 256) := by
    apply BitVec.eq_of_toNat_eq
    exact toNat_extractLsb' v 8 8
  rw [← hlow, ← hhigh]
  exact (s.wrote_putImg o _).trans (State.wrote_putImg _ (o + 1) _)

theorem flagsByte_eq (c : ConfigRegs) :
    flagsByte c = byteOf (0x80 + 0x40 * c.selfPowered.toNat + 0x20 * c.remoteWakeup.toNat) := by
  unfold flagsByte
  cases c.selfPowered <;> cases c.remoteWakeup <;> decide

theorem cfgByte_eq (c : ConfigRegs) : cfgByte c = byteOf (c.isoIn.toNat + 2 * c.isoOut.toNat) := by
  unfold cfgByte
  cases c.isoIn <;> cases c.isoOut <;> decide

/-- Step 4 makes the listed writes (40_build.md R177, R178). -/
theorem wrote_buildFixed {s : State} (hs : s.params.tables = SourceTables.standard) (v : Variant) :
    s.Wrote (buildFixed v s) (fixedWrites v s.cfg) := by
  have hall := ((((s.wrote_putImgHalf 0x02 s.cfg.vid).trans (State.wrote_putImgHalf _ 0x04 s.cfg.pid)).trans
    (State.wrote_putImgHalf _ 0x06 s.cfg.rel)).trans (State.wrote_putImg _ 0x08 (flagsByte s.cfg))).trans
    (State.wrote_putImg _ 0x09 (powerByte s.cfg))
  unfold buildFixed fixedWrites
  dsimp only
  rw [hs, ← flagsByte_eq, ← cfgByte_eq]
  by_cases hv : v = .am ∨ v = .ft230X
  · rw [if_pos hv, if_pos hv, List.append_nil]
    exact hall.congr rfl rfl
  · rw [if_neg hv, if_neg hv]
    exact (hall.trans (State.wrote_putImg _ 0x0A (cfgByte s.cfg))).congr rfl rfl

/-! ### Steps 3..6 -/

/-- The steps 4..6 make the listed writes over the zeros of step 3 (40_build.md R175..R185). -/
theorem wrote_tableBuilt {s : State} (hs : s.params.tables = SourceTables.standard) (v : Variant) :
    (buildZero v (s.budgeted v)).Wrote (s.tableBuilt v) (fixedWrites v s.cfg ++ s.tableWrites v s.buildSize.bytes) := by
  obtain ⟨m3, h3⟩ := buildZero_frame v (s.budgeted v)
  obtain ⟨m4, h4⟩ := buildFixed_frame v (buildZero v (s.budgeted v))
  have hfixed : (buildZero v (s.budgeted v)).Wrote (buildFixed v (buildZero v (s.budgeted v))) _ :=
    wrote_buildFixed (by rw [h3]; exact hs) v
  have htable := (tableAt_table (buildFixed v (buildZero v (s.budgeted v))) v).wrote
  have hcfg : (buildZero v (s.budgeted v)).cfg = s.cfg := by rw [h3]; rfl
  have hwrites : (buildFixed v (buildZero v (s.budgeted v))).tableWrites v (buildFixed v (buildZero v (s.budgeted v))).sz.bytes
      = s.tableWrites v s.buildSize.bytes := by
    rw [h4, h3]
    rfl
  rw [hcfg] at hfixed
  rw [hwrites] at htable
  exact hfixed.trans htable

/-- The image below SZ after step 6. -/
theorem imgByte_tableBuilt {s : State} (hs : s.params.tables = SourceTables.standard) (v : Variant) {a : ImgAddr}
    (ha : a.toNat < s.buildSize.bytes) : (s.tableBuilt v).imgByte a = s.imageBase v a.toNat := by
  have hzero : (buildZero v (s.budgeted v)).imgByte a =
      if v = .ft230X ∧ 0x80 ≤ a.toNat ∧ a.toNat < 0xA0 then s.imgByte a else 0x00 := by
    have hlt : a.toNat < (s.budgeted v).sz.bytes := ha
    rw [imgByte_buildZero]
    simp only [keptByStep3_of_standard (p := (s.budgeted v).params) hs, hlt, true_and, ite_not]
    rfl
  rw [wrote_tableBuilt hs v a, hzero]
  rfl

end Sys2Proof.Machine
end

section
/-! SUPPORT. Step 7 as a list of masked writes: what each byte becomes, and why their order does not matter (40_build.md
R186..R197). -/

namespace Sys2Proof.Machine

/-! ### Masked writes of one byte -/

/-- A masked read-modify-write of an image byte (40_build.md R191). -/
structure MaskedWrite where
  off : ImgAddr
  mask : Byte
  bits : Byte

/-- What a masked write makes of image byte `a`, which holds `b`. -/
def maskedStep (a : ImgAddr) (b : Byte) (w : MaskedWrite) : Byte :=
  if a = w.off then (b &&& ~~~w.mask) ||| (w.bits &&& w.mask) else b

/-- What masked writes, one after another, make of image byte `a`, which holds `b`. -/
def maskedByte (ws : List MaskedWrite) (a : ImgAddr) (b : Byte) : Byte := ws.foldl (maskedStep a) b

theorem maskedByte_append (ws xs : List MaskedWrite) (a : ImgAddr) (b : Byte) :
    maskedByte (ws ++ xs) a b = maskedByte xs a (maskedByte ws a b) := List.foldl_append

/-- The writes share no bit (40_build.md R194 condition 3). -/
def MaskedWrite.Apart (w x : MaskedWrite) : Prop := w.off = x.off → w.mask &&& x.mask = 0

theorem getElem_and_of_and_eq_zero {x y : Byte} (h : x &&& y = 0) {i : Nat} (hi : i < 8) : (x[i] && y[i]) = false := by
  rw [← BitVec.getElem_and, h]
  exact BitVec.getElem_zero hi

/-- Bits outside its mask survive a masked write. -/
theorem maskedStep_and {a : ImgAddr} {w : MaskedWrite} {m : Byte} (h : w.off = a → w.mask &&& m = 0) (b : Byte) :
    maskedStep a b w &&& m = b &&& m := by
  unfold maskedStep
  split
  · next ha =>
    ext i hi
    have hbit := getElem_and_of_and_eq_zero (h ha.symm) hi
    simp only [BitVec.getElem_and, BitVec.getElem_or, BitVec.getElem_not]
    cases hw : w.mask[i]
    · simp
    · simp [show m[i] = false by simpa [hw] using hbit]
  · rfl

/-- Bits outside every mask survive all the writes. -/
theorem maskedByte_and_of_apart {ws : List MaskedWrite} {a : ImgAddr} {m : Byte}
    (h : ∀ w ∈ ws, w.off = a → w.mask &&& m = 0) (b : Byte) : maskedByte ws a b &&& m = b &&& m :=
  List.foldlRecOn ws (maskedStep a) (motive := fun c => c &&& m = b &&& m) rfl
    fun c hc w hw => (maskedStep_and (h w hw) c).trans hc

theorem maskedStep_and_mask (b : Byte) (w : MaskedWrite) : maskedStep w.off b w &&& w.mask = w.bits &&& w.mask := by
  simp only [maskedStep, if_true]
  ext i hi
  simp only [BitVec.getElem_and, BitVec.getElem_or, BitVec.getElem_not]
  cases w.mask[i] <;> simp

/-- A write's own bits stand after writes that share no bit. -/
theorem maskedByte_and_mask {ws : List MaskedWrite} (hws : ws.Pairwise MaskedWrite.Apart) {w : MaskedWrite} (hw : w ∈ ws)
    (b : Byte) : maskedByte ws w.off b &&& w.mask = w.bits &&& w.mask := by
  obtain ⟨pre, post, rfl⟩ := List.append_of_mem hw
  obtain ⟨-, hpost, -⟩ := List.pairwise_append.1 hws
  have hafter : ∀ x ∈ post, x.off = w.off → x.mask &&& w.mask = 0 := fun x hx hoff => by
    rw [BitVec.and_comm]
    exact (List.pairwise_cons.1 hpost).1 x hx hoff.symm
  rw [maskedByte_append]
  exact (maskedByte_and_of_apart hafter _).trans (maskedStep_and_mask _ w)

/-- Two writes that share no bit commute. -/
theorem maskedStep_comm {a : ImgAddr} {w x : MaskedWrite} (h : w.Apart x) (b : Byte) :
    maskedStep a (maskedStep a b w) x = maskedStep a (maskedStep a b x) w := by
  unfold maskedStep
  by_cases hw : a = w.off
  · by_cases hx : a = x.off
    · rw [if_pos hw, if_pos hx, if_pos hx, if_pos hw]
      ext i hi
      have hbit := getElem_and_of_and_eq_zero (h (hw.symm.trans hx)) hi
      simp only [BitVec.getElem_and, BitVec.getElem_or, BitVec.getElem_not]
      cases hm : w.mask[i]
      · simp
      · simp [show x.mask[i] = false by simpa [hm] using hbit]
    · rw [if_neg hx, if_neg hx]
  · rw [if_neg hw, if_neg hw]

/-- Writes that share no bit give the same byte in every order (40_build.md R195). -/
theorem maskedByte_of_perm {ws xs : List MaskedWrite} (hws : ws.Pairwise MaskedWrite.Apart) (h : ws.Perm xs) (a : ImgAddr)
    (b : Byte) : maskedByte ws a b = maskedByte xs a b := by
  have hcomm : ∀ w ∈ ws, ∀ x ∈ ws, ∀ c, maskedStep a (maskedStep a c w) x = maskedStep a (maskedStep a c x) w :=
    (hws.imp maskedStep_comm).forall_of_forall_of_flip (fun w _ c => rfl) (hws.imp fun h c => (maskedStep_comm h c).symm)
  exact h.foldl_eq' (fun w hw x hx c => hcomm w hw x hx c) b

/-! ### The writes of step 7 -/

/-- A layout entry's write (40_build.md R191, R192). -/
def State.entryWrite (s : State) (v : Variant) (e : LayoutEntry) : MaskedWrite :=
  ⟨e.off, e.mask, s.fieldValue v e.kind <<< e.shift.val⟩

/-- A group's write (40_build.md R187). -/
def State.groupWrite (s : State) (v : Variant) (g : Nat) : MaskedWrite :=
  ⟨byteOf (s.params.groupBase v + g / 2), groupMask g, groupNibble s.cfg g <<< (4 * (g % 2))⟩

/-- A CBUS pin's write (40_build.md R193). -/
def State.cbusWrite (s : State) (v : Variant) (pin : CbusSlot × Nat) : MaskedWrite :=
  ⟨pin.1.off, cbusMask (s.params.variant v).cbusW pin.1.shift,
    cbusValue (s.params.variant v) (s.cfg.cbusCode pin.2) <<< pin.1.shift⟩

/-- What step 7 reads: the configuration, the parameters and the sampled chip identifier (40_build.md R172, R192). -/
structure State.SameSources (s t : State) : Prop where
  cfg : t.cfg = s.cfg
  params : t.params = s.params
  chipid : t.chipid = s.chipid

theorem State.SameSources.refl (s : State) : s.SameSources s := ⟨rfl, rfl, rfl⟩

section
variable {s t : State} {v : Variant} {a : ImgAddr}

theorem State.SameSources.entryWrite (h : s.SameSources t) (e : LayoutEntry) : t.entryWrite v e = s.entryWrite v e := by
  unfold State.entryWrite State.fieldValue
  rw [h.cfg, h.params, h.chipid]

theorem State.SameSources.groupWrite (h : s.SameSources t) (g : Nat) : t.groupWrite v g = s.groupWrite v g := by
  unfold State.groupWrite
  rw [h.cfg, h.params]

theorem State.SameSources.cbusWrite (h : s.SameSources t) (pin : CbusSlot × Nat) :
    t.cbusWrite v pin = s.cbusWrite v pin := by
  unfold State.cbusWrite
  rw [h.cfg, h.params]

theorem State.imgByte_rmwImg_eq (s : State) (w : MaskedWrite) (a : ImgAddr) :
    (s.rmwImg w.off w.mask w.bits).imgByte a = maskedStep a (s.imgByte a) w := by
  rw [State.imgByte_rmwImg, maskedStep]
  split
  · next h => rw [h]
  · rfl

/-- A pass of step 7, as its list of writes. -/
theorem imgByte_pass {α : Type} {f : State → α → State} {w : α → MaskedWrite}
    (hf : ∀ t x, s.SameSources t → s.SameSources (f t x) ∧ (f t x).imgByte a = maskedStep a (t.imgByte a) (w x))
    (l : List α) (ht : s.SameSources t) :
    s.SameSources (l.foldl f t) ∧ (l.foldl f t).imgByte a = maskedByte (l.map w) a (t.imgByte a) := by
  induction l generalizing t with
  | nil => exact ⟨ht, rfl⟩
  | cons x l ih =>
    obtain ⟨hsame, hbyte⟩ := hf t x ht
    rw [List.foldl_cons, List.map_cons, maskedByte, List.foldl_cons, ← hbyte]
    exact ih hsame

theorem imgByte_layoutFold (l : List LayoutEntry) (ht : s.SameSources t) :
    s.SameSources (l.foldl (State.applyEntry v) t)
      ∧ (l.foldl (State.applyEntry v) t).imgByte a = maskedByte (l.map (s.entryWrite v)) a (t.imgByte a) :=
  imgByte_pass (f := State.applyEntry v) (w := s.entryWrite v)
    (fun u e hu => ⟨⟨hu.cfg, hu.params, hu.chipid⟩, hu.entryWrite e ▸ u.imgByte_rmwImg_eq (u.entryWrite v e) a⟩) l ht

theorem imgByte_groupFold (l : List Nat) (ht : s.SameSources t) :
    s.SameSources (l.foldl (State.applyGroup v) t)
      ∧ (l.foldl (State.applyGroup v) t).imgByte a = maskedByte (l.map (s.groupWrite v)) a (t.imgByte a) := by
  refine imgByte_pass (fun u g hu => ?_) l ht
  rw [← hu.groupWrite]
  unfold State.applyGroup
  split
  · exact ⟨⟨hu.cfg, hu.params, hu.chipid⟩, (u.warn .drive).imgByte_rmwImg_eq (u.groupWrite v g) a⟩
  · exact ⟨⟨hu.cfg, hu.params, hu.chipid⟩, u.imgByte_rmwImg_eq (u.groupWrite v g) a⟩

theorem imgByte_cbusFold (l : List (CbusSlot × Nat)) (ht : s.SameSources t) :
    s.SameSources (l.foldl (State.applyCbus v) t)
      ∧ (l.foldl (State.applyCbus v) t).imgByte a = maskedByte (l.map (s.cbusWrite v)) a (t.imgByte a) := by
  refine imgByte_pass (fun u pin hu => ?_) l ht
  rw [← hu.cbusWrite]
  unfold State.applyCbus
  dsimp only
  split
  · exact ⟨⟨hu.cfg, hu.params, hu.chipid⟩, (u.warn .cbus).imgByte_rmwImg_eq (u.cbusWrite v pin) a⟩
  · exact ⟨⟨hu.cfg, hu.params, hu.chipid⟩, u.imgByte_rmwImg_eq (u.cbusWrite v pin) a⟩

end

/-- The writes of pass 1 (40_build.md R190). -/
def State.layoutWrites (s : State) (v : Variant) : List MaskedWrite := (s.params.variant v).layout.map (s.entryWrite v)

/-- The writes of pass 2 (40_build.md R187). -/
def State.groupWrites (s : State) (v : Variant) : List MaskedWrite :=
  (List.range (s.params.nGroups v)).map (s.groupWrite v)

/-- The writes of pass 3 (40_build.md R193). -/
def State.cbusWrites (s : State) (v : Variant) : List MaskedWrite :=
  (s.params.variant v).cbusSlots.zipIdx.map (s.cbusWrite v)

/-- The writes of step 7 (40_build.md R186). -/
def State.chipWrites (s : State) (v : Variant) : List MaskedWrite :=
  s.layoutWrites v ++ s.groupWrites v ++ s.cbusWrites v

section
variable {s t : State}

theorem State.SameSources.layoutPass (h : s.SameSources t) (v : Variant) (a : ImgAddr) :
    s.SameSources (t.layoutPass v) ∧ (t.layoutPass v).imgByte a = maskedByte (s.layoutWrites v) a (t.imgByte a) := by
  unfold State.layoutPass State.layoutWrites
  rw [h.params]
  exact imgByte_layoutFold _ h

theorem State.SameSources.groupPass (h : s.SameSources t) (v : Variant) (a : ImgAddr) :
    s.SameSources (t.groupPass v) ∧ (t.groupPass v).imgByte a = maskedByte (s.groupWrites v) a (t.imgByte a) := by
  unfold State.groupPass State.groupWrites
  rw [h.params]
  exact imgByte_groupFold _ h

theorem State.SameSources.cbusPass (h : s.SameSources t) (v : Variant) (a : ImgAddr) :
    s.SameSources (t.cbusPass v) ∧ (t.cbusPass v).imgByte a = maskedByte (s.cbusWrites v) a (t.imgByte a) := by
  unfold State.cbusPass State.cbusWrites
  rw [h.params]
  exact imgByte_cbusFold _ h

end

/-- Step 7, byte by byte (40_build.md R186). -/
theorem imgByte_buildChip (v : Variant) (s : State) (a : ImgAddr) :
    (buildChip v s).imgByte a = maskedByte (s.chipWrites v) a (s.imgByte a) := by
  obtain ⟨hlayout, hlayoutByte⟩ := (State.SameSources.refl s).layoutPass v a
  obtain ⟨hgroup, hgroupByte⟩ := hlayout.groupPass v a
  obtain ⟨-, hcbusByte⟩ := hgroup.cbusPass v a
  rw [State.chipWrites, maskedByte_append, maskedByte_append, ← hlayoutByte, ← hgroupByte, ← hcbusByte]
  rfl

/-! ### What the check of the parameters says of the writes -/

theorem claimsDisjoint_pairwise {cs : List (Nat × Byte)} (h : claimsDisjoint cs = true) :
    cs.Pairwise fun c d => c.1 = d.1 → c.2 &&& d.2 = 0 := by
  induction cs with
  | nil => exact .nil
  | cons c cs ih =>
    simp only [claimsDisjoint, Bool.and_eq_true, List.all_eq_true] at h
    refine .cons (fun d hd heq => ?_) (ih h.2)
    simpa [heq] using h.1 d hd

/-- The writes of step 7 are those R194 speaks of. -/
theorem State.chipWrites_claims {s : State} (hcheck : s.params.check = true) (v : Variant) :
    (s.chipWrites v).map (fun w => (w.off.toNat, w.mask)) = s.params.claims v := by
  have hgroups : (s.groupWrites v).map (fun w => (w.off.toNat, w.mask)) =
      (List.range (s.params.nGroups v)).map fun g => (s.params.groupBase v + g / 2, groupMask g) := by
    unfold State.groupWrites
    rw [List.map_map]
    refine List.map_congr_left fun g hg => ?_
    have hoff := Params.group_off_le hcheck (List.mem_range.1 hg)
    simp only [Function.comp_apply, State.groupWrite, byteOf, BitVec.toNat_ofNat]
    rw [Nat.mod_eq_of_lt (by omega)]
  have hcbus : (s.cbusWrites v).map (fun w => (w.off.toNat, w.mask)) =
      (s.params.variant v).cbusSlots.map fun c => (c.off.toNat, cbusMask (s.params.variant v).cbusW c.shift) := by
    unfold State.cbusWrites
    rw [List.map_map]
    conv_rhs => rw [← List.zipIdx_map_fst 0 (s.params.variant v).cbusSlots, List.map_map]
    rfl
  simp only [State.chipWrites, List.map_append, hgroups, hcbus, Params.claims, State.layoutWrites, List.map_map]
  rfl

theorem State.chipWrites_apart {s : State} (hcheck : s.params.check = true) (v : Variant) :
    (s.chipWrites v).Pairwise MaskedWrite.Apart := by
  have hv := Params.checkVariant_of_check hcheck v
  simp only [Params.checkVariant, Bool.and_eq_true] at hv
  obtain ⟨⟨⟨⟨⟨-, hdisjoint⟩, -⟩, -⟩, -⟩, -⟩ := hv
  have hclaims := claimsDisjoint_pairwise hdisjoint
  rw [← State.chipWrites_claims hcheck, List.pairwise_map] at hclaims
  exact hclaims.imp fun h hoff => h (congrArg BitVec.toNat hoff)

/-- Settles O35: the writes share no bit, so every order of them gives the same bytes. -/
theorem stepSevenOrderIndependent : Obligations.StepSevenOrderIndependent := by
  intro s v hcheck
  obtain ⟨hlg, hcbus, hlgc⟩ := List.pairwise_append.1 (State.chipWrites_apart hcheck v)
  obtain ⟨hlayout, hgroup, hlayoutGroup⟩ := List.pairwise_append.1 hlg
  have hs := State.SameSources.refl s
  have swap {ws xs : List MaskedWrite} (hws : ws.Pairwise MaskedWrite.Apart) (hxs : xs.Pairwise MaskedWrite.Apart)
      (h : ∀ w ∈ ws, ∀ x ∈ xs, w.Apart x) (a : ImgAddr) (b : Byte) :
      maskedByte ws a (maskedByte xs a b) = maskedByte xs a (maskedByte ws a b) := by
    rw [← maskedByte_append, ← maskedByte_append]
    exact (maskedByte_of_perm (List.pairwise_append.2 ⟨hws, hxs, h⟩) List.perm_append_comm a b).symm
  refine ⟨fun l a hl => ?_, fun a => ?_, fun a => ?_, fun a => ?_⟩
  · rw [(hs.layoutPass v a).2, (imgByte_layoutFold l hs).2]
    exact (maskedByte_of_perm hlayout (hl.map _).symm a _).symm
  · rw [((hs.groupPass v a).1.layoutPass v a).2, ((hs.layoutPass v a).1.groupPass v a).2, (hs.groupPass v a).2,
      (hs.layoutPass v a).2]
    exact swap hlayout hgroup hlayoutGroup a _
  · rw [((hs.cbusPass v a).1.layoutPass v a).2, ((hs.layoutPass v a).1.cbusPass v a).2, (hs.cbusPass v a).2,
      (hs.layoutPass v a).2]
    exact swap hlayout hcbus (fun w hw x hx => hlgc w (List.mem_append_left _ hw) x hx) a _
  · rw [((hs.cbusPass v a).1.groupPass v a).2, ((hs.groupPass v a).1.cbusPass v a).2, (hs.cbusPass v a).2,
      (hs.groupPass v a).2]
    exact swap hgroup hcbus (fun w hw x hx => hlgc w (List.mem_append_right _ hw) x hx) a _

/-- The bits of a byte that step 7 claims are those of every write to it (40_build.md R194). -/
theorem State.mask_and_not_claimedBits {s : State} {v : Variant} {c : Nat × Byte} (hc : c ∈ s.params.claims v) :
    c.2 &&& ~~~s.claimedBits v c.1 = 0 := by
  have hfold (l : List (Nat × Byte)) (m : Byte) (h : c ∈ l ∨ c.2 &&& ~~~m = 0) :
      c.2 &&& ~~~(l.foldl (fun m d => m ||| d.2) m) = 0 := by
    induction l generalizing m with
    | nil => simpa using h
    | cons d l ih =>
      refine ih (m ||| d.2) ?_
      rcases h with h | h
      · rcases List.mem_cons.1 h with rfl | h
        · exact .inr (by ext i hi; cases hci : c.2[i] <;> simp [hci])
        · exact .inl h
      · refine .inr ?_
        rw [BitVec.not_or, ← BitVec.and_assoc, h]
        exact BitVec.zero_and
  exact hfold _ 0 (.inl (List.mem_filter.2 ⟨hc, beq_self_eq_true c.1⟩))

/-- Every write of step 7 is one of those R194 speaks of. -/
theorem State.claim_of_mem_chipWrites {s : State} (hcheck : s.params.check = true) {v : Variant} {w : MaskedWrite}
    (hw : w ∈ s.chipWrites v) : (w.off.toNat, w.mask) ∈ s.params.claims v :=
  State.chipWrites_claims hcheck v ▸ List.mem_map_of_mem (f := fun w => (w.off.toNat, w.mask)) hw

/-- The bits of a byte that step 7 does not claim pass through it. -/
theorem maskedByte_chipWrites_and_not_claimedBits {s : State} (hcheck : s.params.check = true) (v : Variant) (a : ImgAddr)
    (b : Byte) :
    maskedByte (s.chipWrites v) a b &&& ~~~s.claimedBits v a.toNat = b &&& ~~~s.claimedBits v a.toNat := by
  refine maskedByte_and_of_apart (fun w hw hoff => ?_) b
  rw [← hoff]
  exact State.mask_and_not_claimedBits (State.claim_of_mem_chipWrites hcheck hw)

/-- A byte that step 7 does not claim passes through it. -/
theorem maskedByte_chipWrites_of_unclaimed {s : State} (hcheck : s.params.check = true) {v : Variant} {a : ImgAddr}
    (h : ∀ c ∈ s.params.claims v, c.1 = a.toNat → c.2 = 0) (b : Byte) : maskedByte (s.chipWrites v) a b = b := by
  have hnone : ∀ w ∈ s.chipWrites v, w.off = a → w.mask &&& BitVec.allOnes 8 = 0 := fun w hw hoff => by
    rw [BitVec.and_allOnes]
    exact h _ (State.claim_of_mem_chipWrites hcheck hw) (congrArg BitVec.toNat hoff)
  have hbyte := maskedByte_and_of_apart hnone b
  rwa [BitVec.and_allOnes, BitVec.and_allOnes] at hbyte

end Sys2Proof.Machine
end

section
/-! SUPPORT. The finished image of a BUILD byte by byte: the writes of the steps 3..6, the masked writes of step 7 over them, the
user data over both (40_build.md R175..R202). -/

namespace Sys2Proof.Machine

/-! ### Step 8 -/

/-- The copy of the first `n` bytes of user data (40_build.md R201). -/
theorem imgByte_copy (s : State) (o : Nat) {n : Nat} (hn : o + n ≤ 256) (a : ImgAddr) :
    ((List.range n).foldl (fun t j => t.putImg (BitVec.ofNat 8 (o + j)) (t.ramByte .udb j)) s).imgByte a =
      if o ≤ a.toNat ∧ a.toNat < o + n then s.ramByte .udb (a.toNat - o) else s.imgByte a := by
  induction n with
  | zero => rw [if_neg (by omega)]; rfl
  | succ n ih =>
    obtain ⟨m, hframe⟩ := foldl_img_frame (fun (t : State) j => t.putImg (BitVec.ofNat 8 (o + j)) (t.ramByte .udb j))
      (fun _ _ => ⟨_, rfl⟩) (List.range n) s
    have hlast : (BitVec.ofNat 8 (o + n)).toNat = o + n := by rw [BitVec.toNat_ofNat]; omega
    rw [List.range_succ, List.foldl_append, List.foldl_cons, List.foldl_nil, State.imgByte_putImg, ih (by omega), hframe]
    by_cases ha : a = BitVec.ofNat 8 (o + n)
    · rw [if_pos ha, if_pos (by rw [ha, hlast]; omega), ha, hlast, Nat.add_sub_cancel_left]
      rfl
    · have hne : a.toNat ≠ o + n := fun h => ha (BitVec.eq_of_toNat_eq (h.trans hlast.symm))
      have hbound : (o ≤ a.toNat ∧ a.toNat < o + (n + 1)) ↔ (o ≤ a.toNat ∧ a.toNat < o + n) := by omega
      rw [if_neg ha]
      simp only [hbound]

/-- An image byte on which user data is copied (40_build.md R201). -/
def ConfigRegs.coversByte (c : ConfigRegs) (a : Nat) : Prop := c.udOffset ≤ a ∧ a < c.udOffset + c.udSize

/-- Step 8 where the user data fits (40_build.md R201). -/
theorem imgByte_buildUser_of_covered {v : Variant} {s : State} {a : ImgAddr}
    (hfits : s.cfg.udOffset + s.cfg.udSize ≤ s.sz.bytes) (ha : s.cfg.coversByte a.toNat) :
    (buildUser v s).imgByte a = s.ramByte .udb (a.toNat - s.cfg.udOffset) := by
  obtain ⟨hlo, hhi⟩ := ha
  rcases buildUser_cases v s with ⟨hnone, -⟩ | ⟨-, hlarge, -⟩ | ⟨-, -, heq⟩
  · omega
  · omega
  · have hcfg : (s.userWarnings v).cfg = s.cfg := by rw [State.userWarnings_eq]
    have hle := ImgSize.bytes_le s.sz
    have hcopy := imgByte_copy (s.userWarnings v) s.cfg.udOffset (n := s.cfg.udSize) (by omega) a
    rw [if_pos ⟨hlo, hhi⟩] at hcopy
    rw [heq]
    show (s.userWarnings v).copyUser.imgByte a = _
    rw [State.copyUser, hcfg, hcopy, State.userWarnings_eq]
    rfl

/-! ### The image below the trailer -/

/-- Image byte `a` after step 7: the masked writes over the last write of the steps 3..6. -/
def State.chipByte (s : State) (v : Variant) (a : ImgAddr) : Byte :=
  maskedByte ((s.budgeted v).chipWrites v) a (s.imageBase v a.toNat)

/-- The image below SZ after step 7. -/
theorem imgByte_chipBuilt {s : State} (hs : s.params.tables = SourceTables.standard) (v : Variant) {a : ImgAddr}
    (ha : a.toNat < s.buildSize.bytes) : (buildChip v (s.tableBuilt v)).imgByte a = s.chipByte v a := by
  have hwrites : (s.tableBuilt v).chipWrites v = (s.budgeted v).chipWrites v := by
    obtain ⟨m, hframe⟩ := s.tableBuilt_frame v
    rw [hframe]
    rfl
  rw [imgByte_buildChip, imgByte_tableBuilt hs v ha, hwrites, State.chipByte]

section
variable {s : State} {v : Variant} {a : ImgAddr}

/-- User data lies on its bytes at the end of step 8. -/
theorem State.BuildPasses.imgByte_imageBuilt_of_covered (h : s.BuildPasses v) (ha : s.cfg.coversByte a.toNat) :
    (s.imageBuilt v).imgByte a = s.ramByte .udb (a.toNat - s.cfg.udOffset) := by
  obtain ⟨m, hframe⟩ := s.chipBuilt_frame v
  have hcfg : (buildChip v (s.tableBuilt v)).cfg = s.cfg := by rw [hframe]; rfl
  have hsz : (buildChip v (s.tableBuilt v)).sz = s.buildSize := by rw [hframe]; rfl
  have hfits : s.cfg.udOffset + s.cfg.udSize ≤ s.buildSize.bytes := by
    obtain ⟨hlo, hhi⟩ := ha
    have hfits := h.userFits
    omega
  rw [State.imageBuilt, imgByte_buildUser_of_covered (by rw [hcfg, hsz]; exact hfits) (by rw [hcfg]; exact ha), hcfg, hframe]
  rfl

/-- Elsewhere step 8 leaves what step 7 left. -/
theorem State.BuildPasses.imgByte_imageBuilt_of_uncovered (h : s.BuildPasses v) (hsz : a.toNat < s.buildSize.bytes)
    (ha : ¬s.cfg.coversByte a.toNat) : (s.imageBuilt v).imgByte a = s.chipByte v a := by
  obtain ⟨m, hframe⟩ := s.chipBuilt_frame v
  have hcfg : (buildChip v (s.tableBuilt v)).cfg = s.cfg := by rw [hframe]; rfl
  rw [State.imageBuilt, imgByte_buildUser_of_off (by rw [hcfg]; exact ha), imgByte_chipBuilt h.standard v hsz]

/-- Step 9 writes the trailer only (40_build.md R203). -/
theorem State.BuildPasses.imgByte_finished (h : s.BuildPasses v) (answers : List (Half × Bool))
    (ha : a.toNat < s.buildSize.bytes - 2) :
    (s.buildSummed v answers).withTrailer.imgByte a = (s.imageBuilt v).imgByte a := by
  have hsz : (s.buildSummed v answers).sz = s.buildSize := by
    obtain ⟨m, himage⟩ := h.imageBuilt_frame
    show (s.imageBuilt v).sz = s.buildSize
    rw [himage]
    rfl
  have hne {k : Nat} (hk : 0 < k) (hk2 : k ≤ 2) : a ≠ byteOf (s.buildSize.bytes - k) := fun heq => by
    rw [heq, toNat_byteOf_sub _ hk] at ha
    omega
  rw [State.imgByte_withTrailer, hsz, if_neg (hne (by decide) (by decide)), if_neg (hne (by decide) (by decide))]
  rfl

end

/-- A BUILD that nothing ends early leaves its user data on the bytes they cover, and elsewhere what step 7 left. -/
theorem State.BuildRuns.exec_build_image {s : State} {v : Variant} {answers : List (Half × Bool)} (h : s.BuildRuns v answers) :
    ∃ t, exec .build s = .next t
      ∧ ∀ a : ImgAddr, a.toNat < s.buildSize.bytes - 2 →
          (s.cfg.coversByte a.toNat → t.imgByte a = s.ramByte .udb (a.toNat - s.cfg.udOffset))
            ∧ (¬s.cfg.coversByte a.toNat → t.imgByte a = s.chipByte v a) := by
  refine ⟨_, h.exec_build, fun a ha => ?_⟩
  rw [h.toBuildPasses.imgByte_finished answers ha]
  exact ⟨h.toBuildPasses.imgByte_imageBuilt_of_covered, h.toBuildPasses.imgByte_imageBuilt_of_uncovered (by omega)⟩

/-- Settles O24: step 8's copy, or step 7's masked writes over the last write of the steps 3..6. -/
theorem buildImageByteByByte : Obligations.BuildImageByteByByte := by
  intro s v answers h
  obtain ⟨t, hexec, himage⟩ := h.exec_build_image
  refine ⟨t, hexec, fun a ha => ?_⟩
  obtain ⟨hcovered, huncovered⟩ := himage a ha
  split
  · next hud => exact hcovered hud
  · next hud =>
    rw [huncovered hud]
    exact maskedByte_chipWrites_and_not_claimedBits (s := s.budgeted v) h.ready.paramsOk v a _

/-- Settles O27: a byte of the user data lies on the image byte at its offset. -/
theorem buildStoresTheUserData : Obligations.BuildStoresTheUserData := by
  intro s v answers h
  obtain ⟨t, hexec, himage⟩ := h.exec_build_image
  refine ⟨t, hexec, fun j hj hbelow => ?_⟩
  have hle := ImgSize.bytes_le s.buildSize
  have hoff : (byteOf (s.cfg.udOffset + j)).toNat = s.cfg.udOffset + j := by rw [byteOf, BitVec.toNat_ofNat]; omega
  have hbyte := (himage (byteOf (s.cfg.udOffset + j)) (by omega)).1 (by unfold ConfigRegs.coversByte; omega)
  rwa [hoff, Nat.add_sub_cancel_left] at hbyte

/-! ### The chip-specific fields -/

/-- A claimed byte that no user data touches holds the bits of its write (40_build.md R191, R195). -/
theorem State.chipByte_and_mask {s : State} (hcheck : s.params.check = true) {v : Variant} {w : MaskedWrite}
    (hw : w ∈ (s.budgeted v).chipWrites v) : s.chipByte v w.off &&& w.mask = w.bits &&& w.mask :=
  maskedByte_and_mask (State.chipWrites_apart (s := s.budgeted v) hcheck v) hw _

theorem State.UserDataOff.not_covers {s : State} {lo hi a : Nat} (h : s.UserDataOff lo hi) (hlo : lo ≤ a) (hhi : a < hi) :
    ¬s.cfg.coversByte a := by
  unfold State.UserDataOff at h
  unfold ConfigRegs.coversByte
  omega

theorem byteOf_bit (w : Word) (i : Nat) : byteOf (w.toNat / 2 ^ i % 2) = flagByte (w.getLsbD i) := by
  rw [← toNat_getLsbD]
  cases w.getLsbD i <;> rfl

/-- The value of a layout entry is that of the configuration bits the rules name (40_build.md R192; 10_state.md R46, R52). -/
theorem State.fieldValue_budgeted (s : State) (v : Variant) (k : FieldKind) :
    (s.budgeted v).fieldValue v k = s.layoutValue v k := by
  cases k with
  | chType ch =>
    have hfunc : s.cfg.func ch = BitVec.ofNat 4 (s.cfg.channelWord ch).toNat := by
      rw [channelWord_eq]
      apply BitVec.eq_of_toNat_eq
      rw [ConfigRegs.func, toNat_extractLsb'_zero, BitVec.toNat_ofNat]
    rw [State.layoutValue, ← hfunc]
    rfl
  | chVcp ch => rw [State.layoutValue, byteOf_bit, channelWord_eq]; rfl
  | chHicur ch => rw [State.layoutValue, byteOf_bit, channelWord_eq]; rfl
  | chRs485 ch => rw [State.layoutValue, byteOf_bit, channelWord_eq]; rfl
  | useSerial => rw [State.layoutValue, byteOf_bit]; rfl
  | chipId => rfl
  | const k => rfl

/-- A value that fits its entry loses no bit to the mask (40_build.md R194 condition 4). -/
theorem LayoutEntry.and_mask_of_fits {e : LayoutEntry} {val : Byte} (h : e.fits val = true) :
    val <<< e.shift.val &&& e.mask = val <<< e.shift.val := by
  simp only [LayoutEntry.fits, Bool.and_eq_true, decide_eq_true_eq, beq_iff_eq] at h
  obtain ⟨hle, hmask⟩ := h
  apply BitVec.eq_of_toNat_eq
  rw [BitVec.toNat_and, BitVec.toNat_shiftLeft, Nat.mod_eq_of_lt (by omega), hmask]

/-- Every value that an entry can yield fits it (40_build.md R194 condition 4). -/
theorem Params.fits_of_check {p : Params} (h : p.check = true) {v : Variant} {e : LayoutEntry}
    (he : e ∈ (p.variant v).layout) : ∀ val ∈ e.kind.values p.family2232 v, e.fits val = true := by
  have hv := Params.checkVariant_of_check h v
  simp only [Params.checkVariant, Bool.and_eq_true] at hv
  obtain ⟨⟨⟨⟨-, hfit⟩, -⟩, -⟩, -⟩ := hv
  simp only [Params.valuesFit, List.all_eq_true] at hfit
  exact hfit e he

/-- Where 0xFF fits, every byte does (40_build.md R194 condition 4). -/
theorem LayoutEntry.fits_of_fits_ff {e : LayoutEntry} (h : e.fits 0xFF = true) (val : Byte) : e.fits val = true := by
  have hshift : e.shift = 0 := by
    simp only [LayoutEntry.fits, Bool.and_eq_true, decide_eq_true_eq] at h
    have hle := h.1
    revert hle
    generalize e.shift = n
    revert n
    decide
  have hmask : e.mask = 0xFF := by
    simp only [LayoutEntry.fits, Bool.and_eq_true, beq_iff_eq, hshift] at h
    have hand := h.2
    revert hand
    generalize e.mask = m
    revert m
    decide
  have hlt := val.isLt
  simp only [LayoutEntry.fits, hshift, hmask, Bool.and_eq_true, decide_eq_true_eq, beq_iff_eq]
  refine ⟨by show val.toNat ≤ 255; omega, ?_⟩
  show val.toNat &&& (2 ^ 8 - 1) = val.toNat
  rw [Nat.and_two_pow_sub_one_eq_mod]
  omega

/-- The value of a layout entry fits it. -/
theorem State.layoutValue_fits {s : State} (hcheck : s.params.check = true) {v : Variant} {e : LayoutEntry}
    (he : e ∈ (s.params.variant v).layout) : e.fits (s.layoutValue v e.kind) = true := by
  have hfits := Params.fits_of_check hcheck he
  have flag (n : Nat) (hflag : ∀ val ∈ ([0, 1] : List Byte), e.fits val = true) : e.fits (byteOf (n % 2)) = true := by
    rcases Nat.mod_two_eq_zero_or_one n with h | h <;> rw [h]
    · exact hflag 0 (by decide)
    · exact hflag 1 (by decide)
  cases hk : e.kind with
  | chType ch =>
    rw [hk] at hfits
    refine hfits _ (List.mem_map.2 ⟨(s.cfg.channelWord ch).toNat % 16, List.mem_range.2 (by omega), ?_⟩)
    rw [show BitVec.ofNat 4 ((s.cfg.channelWord ch).toNat % 16) = BitVec.ofNat 4 (s.cfg.channelWord ch).toNat from
      BitVec.eq_of_toNat_eq (by rw [BitVec.toNat_ofNat, BitVec.toNat_ofNat, Nat.mod_mod])]
    rfl
  | chVcp ch | chHicur ch | chRs485 ch | useSerial =>
    rw [hk] at hfits
    exact flag _ hfits
  | chipId =>
    rw [hk] at hfits
    exact LayoutEntry.fits_of_fits_ff (hfits 0xFF (List.mem_cons_of_mem _ (List.mem_singleton.2 rfl))) _
  | const k =>
    rw [hk] at hfits
    exact hfits k (List.mem_singleton.2 rfl)

/-- The field of `w` bits at `shift` holds the code written under its mask (40_build.md R193). -/
theorem field_of_and_cbusMask {b code : Byte} {w shift : Nat} (hfit : shift + w ≤ 8)
    (h : b &&& cbusMask w shift = code <<< shift &&& cbusMask w shift) :
    (b >>> shift).toNat % 2 ^ w = code.toNat % 2 ^ w := by
  apply Nat.eq_of_testBit_eq
  intro i
  rw [Nat.testBit_mod_two_pow, Nat.testBit_mod_two_pow]
  by_cases hi : i < w
  · have hmask : (cbusMask w shift).getLsbD (shift + i) = true := by
      rw [cbusMask, BitVec.getLsbD_ofNat, Nat.one_shiftLeft, Nat.testBit_shiftLeft, Nat.add_sub_cancel_left,
        Nat.testBit_two_pow_sub_one]
      simp only [Bool.and_eq_true, decide_eq_true_eq]
      omega
    have hbit := congrArg (fun x : Byte => x.getLsbD (shift + i)) h
    simp only [BitVec.getLsbD_and, hmask, Bool.and_true, BitVec.getLsbD_shiftLeft, Nat.add_sub_cancel_left] at hbit
    have hlt : shift + i < 8 := by omega
    rw [BitVec.testBit_toNat, BitVec.testBit_toNat, BitVec.getLsbD_ushiftRight, hbit]
    simp [hi, hlt]
  · simp [hi]

theorem groupMask_eq (g : Nat) : groupMask g = cbusMask 4 (4 * (g % 2)) := by
  unfold groupMask
  rcases Nat.mod_two_eq_zero_or_one g with h | h <;> rw [h] <;> decide

/-- The group nibble: the drive code clamped to 3, and its two flags (30_encoding.md R148; 40_build.md R187). -/
theorem groupNibble_toNat (c : ConfigRegs) (g : Nat) :
    (groupNibble c g).toNat = min (c.drive g).toNat 3 + 4 * (c.slowSlew g).toNat + 8 * (c.schmitt g).toNat := by
  have hclamp : clampDrive (c.drive g) = byteOf (min (c.drive g).toNat 3) := by
    unfold clampDrive
    split
    · next h => rw [Nat.min_eq_right (Nat.le_of_lt h)]; rfl
    · next h => rw [Nat.min_eq_left (Nat.le_of_not_lt h), byteOf, BitVec.ofNat_toNat, BitVec.setWidth_eq]
  have hnibble : ∀ (n : Fin 4) (slew schmitt : Bool),
      (byteOf n.val ||| (flagByte slew <<< 2) ||| (flagByte schmitt <<< 3)).toNat = n.val + 4 * slew.toNat + 8 * schmitt.toNat := by
    decide
  rw [groupNibble, hclamp]
  exact hnibble ⟨min (c.drive g).toNat 3, by omega⟩ (c.slowSlew g) (c.schmitt g)

/-- What the check asks of the CBUS slots (40_build.md R194 condition 5). -/
theorem Params.cbus_of_check {p : Params} (h : p.check = true) (v : Variant) :
    (p.variant v).cbusDefault ≤ (p.variant v).cbusMax ∧ (p.variant v).cbusMax < 2 ^ (p.variant v).cbusW
      ∧ ∀ c ∈ (p.variant v).cbusSlots, c.shift + (p.variant v).cbusW ≤ 8 := by
  have hv := Params.checkVariant_of_check h v
  simp only [Params.checkVariant, Bool.and_eq_true] at hv
  obtain ⟨⟨⟨-, hcap⟩, -⟩, -⟩ := hv
  simp only [Params.capacities, Bool.and_eq_true, decide_eq_true_eq, List.all_eq_true] at hcap
  obtain ⟨⟨⟨⟨⟨-, -⟩, -⟩, hdefault⟩, hmax⟩, hslots⟩ := hcap
  exact ⟨hdefault, hmax, hslots⟩

/-- The code of a CBUS pin fits its slot (40_build.md R193, R194). -/
theorem cbusValue_toNat {p : Params} (h : p.check = true) {v : Variant} {c : CbusSlot}
    (hc : c ∈ (p.variant v).cbusSlots) (code : Byte) :
    (cbusValue (p.variant v) code).toNat % 2 ^ (p.variant v).cbusW =
      if (p.variant v).cbusMax < code.toNat then (p.variant v).cbusDefault else code.toNat := by
  obtain ⟨hdefault, hmax, hslots⟩ := Params.cbus_of_check h v
  have hpow : 2 ^ (p.variant v).cbusW ≤ 2 ^ 8 := Nat.pow_le_pow_right (by decide) (by have := hslots c hc; omega)
  unfold cbusValue
  split
  · rw [byteOf, BitVec.toNat_ofNat, Nat.mod_eq_of_lt (a := (p.variant v).cbusDefault) (by omega), Nat.mod_eq_of_lt (by omega)]
  · rw [Nat.mod_eq_of_lt (by omega)]

section
variable {s : State} {v : Variant}

theorem State.entryWrite_mem {e : LayoutEntry} (he : e ∈ (s.params.variant v).layout) :
    (s.budgeted v).entryWrite v e ∈ (s.budgeted v).chipWrites v :=
  List.mem_append_left _ (List.mem_append_left _ (List.mem_map_of_mem he))

theorem State.groupWrite_mem {g : Nat} (hg : g < s.params.nGroups v) :
    (s.budgeted v).groupWrite v g ∈ (s.budgeted v).chipWrites v :=
  List.mem_append_left _ (List.mem_append_right _ (List.mem_map_of_mem (List.mem_range.2 hg)))

theorem State.cbusWrite_mem {k : Nat} {c : CbusSlot} (hk : (s.params.variant v).cbusSlots[k]? = some c) :
    (s.budgeted v).cbusWrite v (c, k) ∈ (s.budgeted v).chipWrites v :=
  List.mem_append_right _ (List.mem_map_of_mem (List.mk_mem_zipIdx_iff_getElem?.2 hk))

end

/-- Settles O25: no other write touches the bits of an entry, a group or a pin, and their values fit. -/
theorem buildStoresTheChipFields : Obligations.BuildStoresTheChipFields := by
  intro s v answers h
  have hcheck := h.ready.paramsOk
  obtain ⟨t, hexec, himage⟩ := h.exec_build_image
  have chip {w : MaskedWrite} (hw : w ∈ (s.budgeted v).chipWrites v) {n : Nat} (hoff : w.off.toNat = n) (hn : n ≤ 0x7D)
      (hud : s.UserDataOff n (n + 1)) : t.imgByte w.off &&& w.mask = w.bits &&& w.mask := by
    have hsize := ImgSize.bytes_ge s.buildSize
    rw [(himage w.off (by omega)).2 (hoff ▸ hud.not_covers (Nat.le_refl n) (Nat.lt_succ_self n))]
    exact State.chipByte_and_mask hcheck hw
  refine ⟨t, hexec, fun e he hud => ?_, fun g hg hud => ?_, fun k c hk hud => ?_⟩
  · have hbits := chip (State.entryWrite_mem he) rfl (Params.layout_off_le hcheck he) hud
    refine hbits.trans ?_
    show (s.budgeted v).fieldValue v e.kind <<< e.shift.val &&& e.mask = _
    rw [State.fieldValue_budgeted]
    exact LayoutEntry.and_mask_of_fits (State.layoutValue_fits hcheck he)
  · have hle := Params.group_off_le hcheck hg
    have hoff : (byteOf (s.params.groupBase v + g / 2)).toNat = s.params.groupBase v + g / 2 := by
      rw [byteOf, BitVec.toNat_ofNat]
      omega
    have hbits : t.imgByte (byteOf (s.params.groupBase v + g / 2)) &&& groupMask g =
        groupNibble s.cfg g <<< (4 * (g % 2)) &&& groupMask g := chip (State.groupWrite_mem hg) hoff hle hud
    rw [groupMask_eq] at hbits
    have hfield := field_of_and_cbusMask (by omega) hbits
    have hnibble := groupNibble_toNat s.cfg g
    have hslew := Bool.toNat_le (s.cfg.slowSlew g)
    have hschmitt := Bool.toNat_le (s.cfg.schmitt g)
    rw [BitVec.toNat_and]
    refine (Nat.and_two_pow_sub_one_eq_mod _ 4).trans ?_
    rw [hfield, hnibble]
    omega
  · have hc : c ∈ (s.params.variant v).cbusSlots := List.mem_of_getElem? hk
    obtain ⟨-, -, hslots⟩ := Params.cbus_of_check hcheck v
    have hbits := chip (State.cbusWrite_mem hk) rfl (Params.cbus_off_le hcheck hc) hud
    exact (field_of_and_cbusMask (hslots c hc) hbits).trans (cbusValue_toNat hcheck hc _)

end Sys2Proof.Machine
end

section
/-! SUPPORT. The fixed fields and the string table in the finished image (40_build.md R177..R185, R207). -/

namespace Sys2Proof.Machine

/-! ### The last of the table's writes -/

theorem lastWrite_eq_none {ws : List (Nat × Byte)} {a : Nat} (h : ∀ w ∈ ws, w.1 ≠ a) : lastWrite ws a = none := by
  rw [lastWrite, Option.map_eq_none_iff, List.find?_eq_none]
  exact fun w hw heq => h w (List.mem_reverse.1 hw) (beq_iff_eq.1 heq)

theorem mem_wrappedWrites {size start : Nat} {bytes : List Byte} {w : Nat × Byte} (h : w ∈ wrappedWrites size start bytes) :
    ∃ k < bytes.length, w.1 = (start + k) % size := by
  obtain ⟨⟨b, k⟩, hb, rfl⟩ := List.mem_map.1 h
  exact ⟨k, (List.mem_zipIdx' hb).1, rfl⟩

/-- A table that does not wrap holds its bytes one after another (40_build.md R184). -/
theorem lastWrite_wrappedWrites {size start : Nat} (bytes : List Byte) (hclean : start % size + bytes.length ≤ size)
    (a : Nat) :
    lastWrite (wrappedWrites size start bytes) a = if start % size ≤ a then bytes[a - start % size]? else none := by
  induction bytes using List.reverseRecOn with
  | nil => simp [wrappedWrites]
  | append_singleton bytes b ih =>
    rw [List.length_append, List.length_singleton] at hclean
    have hpos : (start + bytes.length) % size = start % size + bytes.length := by
      rw [← Nat.mod_add_mod, Nat.mod_eq_of_lt (by omega)]
    have hlast : wrappedWrites size (start + bytes.length) [b] = [((start + bytes.length) % size, b)] := rfl
    rw [wrappedWrites_append, lastWrite_append, hlast, lastWrite_single, hpos, ih (by omega)]
    by_cases ha : start % size + bytes.length = a
    · rw [if_pos ha, show a - start % size = bytes.length by omega, List.getElem?_concat_length,
        Option.some_or]
      exact (if_pos (by omega)).symm
    · rw [if_neg ha, Option.none_or]
      by_cases hle : start % size ≤ a
      · rw [if_pos hle, if_pos hle, List.getElem?_append]
        split
        · rfl
        · rw [List.getElem?_eq_none (by omega), List.getElem?_eq_none (by simp; omega)]
      · rw [if_neg hle, if_neg hle]

/-- The bytes of the string table, one after another (40_build.md R181, R185). -/
def State.tableBytes (s : State) (v : Variant) : List Byte :=
  descriptorBytes (s.chars .strM s.cfg.mfrLen) ++ descriptorBytes (s.chars .strP s.cfg.prodLen)
    ++ descriptorBytes (s.chars .strS s.cfg.serLen)
    ++ if v = .am ∨ v = .bm then [] else [0x02, 0x03, if s.cfg.isNotPnp then 0x01 else 0x00]

/-- The header slots, in the order of 40_build.md R182. -/
def State.slotWrites (s : State) (v : Variant) (size : Nat) : List (Nat × Byte) :=
  let mfr := (s.params.strStart v).toNat
  let prod := mfr + (2 * s.cfg.mfrLen + 2)
  let ser := prod + (2 * s.cfg.prodLen + 2)
  [(0x0E, byteOf (match s.params.mfrOffsetMode with | .raw => mfr | .masked => mfr % size)),
    (0x0F, byteOf (2 * s.cfg.mfrLen + 2)), (0x10, byteOf (prod ||| 0x80)), (0x11, byteOf (2 * s.cfg.prodLen + 2)),
    (0x12, byteOf (ser ||| 0x80)), (0x13, byteOf (2 * s.cfg.serLen + 2))]

theorem State.length_tableBytes (s : State) (v : Variant) : (s.tableBytes v).length = tableLength v s.cfg := by
  have hpnp := hasPnp_iff v
  simp only [State.tableBytes, List.length_append, length_descriptorBytes, State.length_chars, tableLength,
    ConfigRegs.totalLen]
  by_cases hv : v = .am ∨ v = .bm
  · rw [if_pos hv, if_neg fun h => hpnp.1 h hv, List.length_nil]
    omega
  · rw [if_neg hv, if_pos (hpnp.2 hv)]
    simp only [List.length_cons, List.length_nil]
    omega

/-- The table as one run of bytes. -/
theorem State.wrappedWrites_tableBytes (s : State) (v : Variant) (size start : Nat) :
    wrappedWrites size start (s.tableBytes v) =
      wrappedWrites size start (descriptorBytes (s.chars .strM s.cfg.mfrLen))
        ++ wrappedWrites size (start + (2 * s.cfg.mfrLen + 2)) (descriptorBytes (s.chars .strP s.cfg.prodLen))
        ++ wrappedWrites size (start + (2 * s.cfg.mfrLen + 2) + (2 * s.cfg.prodLen + 2))
            (descriptorBytes (s.chars .strS s.cfg.serLen))
        ++ if v = .am ∨ v = .bm then [] else
            wrappedWrites size (start + (2 * s.cfg.mfrLen + 2) + (2 * s.cfg.prodLen + 2) + (2 * s.cfg.serLen + 2))
              [0x02, 0x03, if s.cfg.isNotPnp then 0x01 else 0x00] := by
  simp only [State.tableBytes, wrappedWrites_append, List.length_append, length_descriptorBytes, State.length_chars,
    Nat.add_assoc]
  split <;> rfl

theorem lastWrite_cons (w : Nat × Byte) (ws : List (Nat × Byte)) (a : Nat) :
    lastWrite (w :: ws) a = (lastWrite ws a).or (if w.1 = a then some w.2 else none) := by
  rw [← lastWrite_single]
  exact lastWrite_append [w] ws a

section
variable (s : State) (v : Variant) (size : Nat) {a : Nat}

/-- Off the header slots the last write is that of a table byte. -/
theorem State.lastWrite_tableWrites_of_offSlots (ha : a < 0x0E ∨ 0x13 < a) :
    lastWrite (s.tableWrites v size) a =
      lastWrite (wrappedWrites size (s.params.strStart v).toNat (s.tableBytes v)) a := by
  have slot {n : Nat} (hn : 0x0E ≤ n ∧ n ≤ 0x13) : ¬n = a := by omega
  rw [State.wrappedWrites_tableBytes]
  simp only [State.tableWrites, lastWrite_append, lastWrite_cons, lastWrite_nil, slot (n := 0x0E) (by decide),
    slot (n := 0x0F) (by decide), slot (n := 0x10) (by decide), slot (n := 0x11) (by decide),
    slot (n := 0x12) (by decide), slot (n := 0x13) (by decide), if_false, Option.or_none,
    Option.none_or]

/-- Where no table byte lands the last write is that of a header slot. -/
theorem State.lastWrite_tableWrites_of_offTable
    (ha : lastWrite (wrappedWrites size (s.params.strStart v).toNat (s.tableBytes v)) a = none) :
    lastWrite (s.tableWrites v size) a = lastWrite (s.slotWrites v size) a := by
  simp only [State.wrappedWrites_tableBytes, lastWrite_append, Option.or_eq_none_iff] at ha
  obtain ⟨hpnp, hser, hprod, hmfr⟩ := ha
  cases hmode : s.params.mfrOffsetMode <;>
    simp only [State.tableWrites, State.slotWrites, lastWrite_append, lastWrite_cons, lastWrite_nil, hpnp, hser, hprod, hmfr,
      Option.none_or, Option.or_assoc, hmode]

end

/-! ### Bytes of the image off the wrapped table, on the header slots, and in a clean table -/

section
variable {s : State} {v : Variant}

theorem State.BuildPasses.tableStart_ge (h : s.BuildPasses v) : 0x14 ≤ s.tableStart v := by
  unfold State.tableStart
  rw [Params.strStart, h.standard]
  cases s.buildSize <;> cases v <;> decide

/-- Below 0x80 the zeros of step 3 stand where the steps 4..6 write nothing. -/
theorem State.imageBase_of_low {a : Nat} (ha : a < 0x80) :
    s.imageBase v a = (lastWrite (fixedWrites v s.cfg ++ s.tableWrites v s.buildSize.bytes) a).getD 0x00 := by
  rw [State.imageBase, if_neg (by omega)]

/-- The fixed fields, where the table wraps onto 0x00 and 0x01 at the most (40_build.md R177, R178). -/
theorem State.BuildPasses.imageBase_of_fixed (h : s.BuildPasses v)
    (hwrap : s.tableStart v + tableLength v s.cfg ≤ s.buildSize.bytes + 2) {a : Nat} (hlo : 0x02 ≤ a) (hhi : a ≤ 0x0A) :
    s.imageBase v a = (lastWrite (fixedWrites v s.cfg) a).getD 0x00 := by
  have hstart := h.tableStart_ge
  have hnone : lastWrite (s.tableWrites v s.buildSize.bytes) a = none := by
    rw [State.lastWrite_tableWrites_of_offSlots s v _ (.inl (by omega))]
    refine lastWrite_eq_none fun w hw hwa => ?_
    obtain ⟨k, hk, hpos⟩ := mem_wrappedWrites hw
    rw [State.length_tableBytes] at hk
    rw [← Nat.mod_add_mod] at hpos
    unfold State.tableStart at hstart hwrap
    have hge := ImgSize.bytes_ge s.buildSize
    by_cases hlt : (s.params.strStart v).toNat % s.buildSize.bytes + k < s.buildSize.bytes
    · rw [Nat.mod_eq_of_lt hlt] at hpos
      omega
    · rw [Nat.mod_eq_sub_mod (by omega), Nat.mod_eq_of_lt (by omega)] at hpos
      omega
  rw [State.imageBase_of_low (by omega), lastWrite_append, hnone, Option.none_or]

/-- A header slot of a clean table (40_build.md R181). -/
theorem State.BuildPasses.imageBase_of_slot (h : s.BuildPasses v) (hclean : s.CleanTable v) {w : Nat × Byte}
    (hw : lastWrite (s.slotWrites v s.buildSize.bytes) w.1 = some w.2) (hslot : w.1 ≤ 0x13) : s.imageBase v w.1 = w.2 := by
  have hstart := h.tableStart_ge
  have hnone : lastWrite (wrappedWrites s.buildSize.bytes (s.params.strStart v).toNat (s.tableBytes v)) w.1 = none := by
    unfold State.CleanTable State.tableStart at hclean
    unfold State.tableStart at hstart
    rw [lastWrite_wrappedWrites _ (by rw [State.length_tableBytes]; omega), if_neg (by omega)]
  rw [State.imageBase_of_low (by omega), lastWrite_append, State.lastWrite_tableWrites_of_offTable s v _ hnone, hw]
  rfl

/-- Byte `k` of a clean table (40_build.md R184). -/
theorem State.BuildPasses.imageBase_of_table (h : s.BuildPasses v) (hclean : s.CleanTable v) {k : Nat} {b : Byte}
    (hb : (s.tableBytes v)[k]? = some b) : s.imageBase v (s.tableStart v + k) = b := by
  have hstart := h.tableStart_ge
  have hlast : lastWrite (s.tableWrites v s.buildSize.bytes) (s.tableStart v + k) = some b := by
    unfold State.CleanTable at hclean
    unfold State.tableStart at hclean hstart ⊢
    rw [State.lastWrite_tableWrites_of_offSlots s v _ (.inr (by omega)),
      lastWrite_wrappedWrites _ (by rw [State.length_tableBytes]; omega), if_pos (by omega), Nat.add_sub_cancel_left, hb]
  rw [State.imageBase, lastWrite_append, hlast]
  rfl

end

/-! ### The fixed fields -/

/-- What step 7 may claim of the bytes that other steps write (40_build.md R194 condition 2). -/
theorem Params.claim_avoids {p : Params} (h : p.check = true) {v : Variant} {c : Nat × Byte} (hc : c ∈ p.claims v) :
    ((0x02 ≤ c.1 ∧ c.1 ≤ 0x09) ∨ (0x0E ≤ c.1 ∧ c.1 ≤ 0x13) → c.2 = 0)
      ∧ (v ≠ .am → v ≠ .ft230X → c.1 = p.tables.offCfg.toNat → c.2 &&& 0x03 = 0) := by
  have hv := Params.checkVariant_of_check h v
  simp only [Params.checkVariant, Bool.and_eq_true] at hv
  obtain ⟨⟨⟨⟨⟨⟨-, havoid⟩, -⟩, -⟩, -⟩, -⟩, -⟩ := hv
  simp only [Params.avoidsFixedFields, List.all_eq_true, Bool.and_eq_true, Bool.or_eq_true, Bool.not_eq_true',
    Bool.or_eq_false_iff, Bool.and_eq_false_iff, beq_iff_eq, bne_iff_ne, decide_eq_false_iff_not] at havoid
  obtain ⟨hfixed, hcfg⟩ := havoid c hc
  refine ⟨fun hslot => ?_, fun ham h230 hoff => ?_⟩
  · rcases hfixed with h0 | ⟨⟨hlow, hhigh⟩, -⟩
    · exact h0
    · omega
  · rcases hcfg with ((h0 | h0) | h0) | h0
    · exact absurd h0 ham
    · exact absurd h0 h230
    · exact absurd hoff h0
    · exact h0

/-- Step 7 leaves the fixed fields at 0x02..0x09 and the header slots (40_build.md R194). -/
theorem State.chipByte_of_reserved {s : State} (hcheck : s.params.check = true) (v : Variant) {a : ImgAddr}
    (ha : (0x02 ≤ a.toNat ∧ a.toNat ≤ 0x09) ∨ (0x0E ≤ a.toNat ∧ a.toNat ≤ 0x13)) :
    s.chipByte v a = s.imageBase v a.toNat :=
  maskedByte_chipWrites_of_unclaimed (s := s.budgeted v) hcheck
    (fun _ hc hoff => (Params.claim_avoids hcheck hc).1 (hoff ▸ ha)) _

theorem append_bytes_of_half (x : Half) : byteOf (x.toNat / 256) ++ byteOf x.toNat = x := by
  apply BitVec.eq_of_toNat_eq
  rw [BitVec.toNat_append, byteOf, byteOf, BitVec.toNat_ofNat, BitVec.toNat_ofNat, Nat.shiftLeft_eq]
  have hlt := x.isLt
  rw [Nat.mul_comm, ← Nat.two_pow_add_eq_or_of_lt (Nat.mod_lt _ (by decide))]
  omega

/-- The fields below 0x0A are those of every variant (40_build.md R177). -/
theorem lastWrite_fixedWrites_of_ne (v : Variant) (c : ConfigRegs) {a : Nat} (ha : a ≠ 0x0A) :
    lastWrite (fixedWrites v c) a = lastWrite (fixedWrites .am c) a := by
  have htail (u : Variant) (w : Nat × Byte) (hw : w.1 = 0x0A) :
      lastWrite (if u = .am ∨ u = .ft230X then [] else [w]) a = none := by
    refine lastWrite_eq_none fun x hx => ?_
    split at hx
    · simp at hx
    · rw [List.mem_singleton.1 hx, hw]
      exact ha.symm
  rw [fixedWrites, fixedWrites, lastWrite_append, lastWrite_append, htail v _ rfl, htail .am _ rfl]

/-- The configuration byte, on the variants that have one (40_build.md R178). -/
theorem lastWrite_fixedWrites_cfg (v : Variant) (c : ConfigRegs) :
    lastWrite (fixedWrites v c) 0x0A =
      if v = .am ∨ v = .ft230X then none else some (byteOf (c.isoIn.toNat + 2 * c.isoOut.toNat)) := by
  unfold fixedWrites
  split <;> rfl

section
variable {s t : State} {v : Variant}

/-- The bits of 0x0A that step 7 may claim leave the two isochronous flags (40_build.md R178, R194). -/
theorem State.chipByte_cfg_and_three (h : s.BuildPasses v) (ham : v ≠ .am) (h230 : v ≠ .ft230X) :
    s.chipByte v 0x0A &&& 0x03 = s.imageBase v 0x0A &&& 0x03 := by
  have hcheck : (s.budgeted v).params.check = true := h.ready.paramsOk
  refine maskedByte_and_of_apart (fun w hw hoff => ?_) _
  refine (Params.claim_avoids hcheck (State.claim_of_mem_chipWrites hcheck hw)).2 ham h230 ?_
  show w.off.toNat = s.params.tables.offCfg.toNat
  rw [hoff, h.standard]
  rfl

end

/-- Settles O22: off the table and the user data the last write is step 4's, and step 7 leaves its bits alone. -/
theorem buildStoresTheFixedFields : Obligations.BuildStoresTheFixedFields := by
  intro s v answers h hwrap hud
  obtain ⟨t, hexec, himage⟩ := h.exec_build_image
  have hcheck := h.ready.paramsOk
  have chip (a : ImgAddr) (hlo : 0x02 ≤ a.toNat) (hhi : a.toNat ≤ 0x0A) : t.imgByte a = s.chipByte v a := by
    have hsize := ImgSize.bytes_ge s.buildSize
    exact (himage a (by omega)).2 (hud.not_covers hlo (by omega))
  have fixed (a : ImgAddr) {b : Byte} (hlo : 0x02 ≤ a.toNat) (hhi : a.toNat ≤ 0x09)
      (hb : lastWrite (fixedWrites .am s.cfg) a.toNat = some b) : t.imgByte a = b := by
    rw [chip a hlo (by omega), State.chipByte_of_reserved hcheck v (.inl ⟨hlo, hhi⟩),
      h.imageBase_of_fixed hwrap hlo (by omega), lastWrite_fixedWrites_of_ne v s.cfg (by omega), hb]
    rfl
  have half (a : ImgAddr) {x : Half} (hlo : 0x02 ≤ a.toNat) (hhi : (a + 1).toNat ≤ 0x09) (hnext : a.toNat < (a + 1).toNat)
      (h0 : lastWrite (fixedWrites .am s.cfg) a.toNat = some (byteOf x.toNat))
      (h1 : lastWrite (fixedWrites .am s.cfg) (a + 1).toNat = some (byteOf (x.toNat / 256))) : t.imgHalf a = x := by
    rw [State.imgHalf, fixed a hlo (by omega) h0, fixed (a + 1) (by omega) hhi h1, append_bytes_of_half]
  have hcfg : s.imageBase v 0x0A = (lastWrite (fixedWrites v s.cfg) 0x0A).getD 0x00 :=
    h.imageBase_of_fixed hwrap (by decide) (by decide)
  rw [lastWrite_fixedWrites_cfg] at hcfg
  have unclaimed : t.imgByte 0x0A &&& ~~~s.claimedBits v 0x0A = s.imageBase v 0x0A &&& ~~~s.claimedBits v 0x0A := by
    rw [chip 0x0A (by decide) (by decide)]
    exact maskedByte_chipWrites_and_not_claimedBits (s := s.budgeted v) hcheck v 0x0A _
  refine ⟨t, hexec, half 0x02 (by decide) (by decide) (by decide) rfl rfl,
    half 0x04 (by decide) (by decide) (by decide) rfl rfl, half 0x06 (by decide) (by decide) (by decide) rfl rfl,
    ?_, ?_, fun ham h230 => ⟨?_, ?_⟩, fun hv => ?_⟩
  · rw [fixed 0x08 (by decide) (by decide) rfl, byteOf, BitVec.toNat_ofNat]
    have hself := Bool.toNat_le s.cfg.selfPowered
    have hwake := Bool.toNat_le s.cfg.remoteWakeup
    omega
  · rw [fixed 0x09 (by decide) (by decide) rfl, byteOf, BitVec.toNat_ofNat]
    have hpower : s.cfg.maxPower < 2 ^ 9 := BitVec.isLt _
    omega
  · rw [chip 0x0A (by decide) (by decide), State.chipByte_cfg_and_three h.toBuildPasses ham h230, hcfg,
      if_neg (not_or.2 ⟨ham, h230⟩)]
    cases s.cfg.isoIn <;> cases s.cfg.isoOut <;> decide
  · rw [BitVec.and_assoc, BitVec.and_comm 0xFC, ← BitVec.and_assoc, unclaimed, hcfg, if_neg (not_or.2 ⟨ham, h230⟩),
      BitVec.and_assoc, BitVec.and_comm _ 0xFC, ← BitVec.and_assoc]
    have hflags : byteOf (s.cfg.isoIn.toNat + 2 * s.cfg.isoOut.toNat) &&& 0xFC = 0 := by
      cases s.cfg.isoIn <;> cases s.cfg.isoOut <;> decide
    rw [Option.getD_some, hflags]
    exact BitVec.zero_and
  · rw [unclaimed, hcfg, if_pos hv]
    exact BitVec.zero_and

end Sys2Proof.Machine
end

section
/-! SUPPORT. The string table reads back from the finished image (40_build.md R181, R185, R207; 30_encoding.md R143, R150). -/

namespace Sys2Proof.Machine

/-! ### The bytes of a descriptor -/

theorem getElem?_chars_flatMap (chars : List Byte) (j : Nat) :
    (chars.flatMap fun ch => [ch, 0x00])[2 * j]? = chars[j]?
      ∧ (j < chars.length → (chars.flatMap fun ch => [ch, 0x00])[2 * j + 1]? = some 0x00) := by
  induction chars generalizing j with
  | nil => simp
  | cons ch chars ih =>
    cases j with
    | zero => exact ⟨rfl, fun _ => rfl⟩
    | succ j =>
      rw [List.length_cons, Nat.succ_lt_succ_iff]
      exact ih j

/-- A descriptor stands where its bytes do (30_encoding.md R143). -/
theorem State.descriptorAt_of_bytes {t : State} {start : Nat} {r : RamId} {n : Nat}
    (h : ∀ (k : Nat) (b : Byte), (descriptorBytes (t.chars r n))[k]? = some b → t.imgByte (byteOf (start + k)) = b) :
    t.DescriptorAt start r n := by
  refine ⟨h 0 _ ?_, h 1 _ rfl, fun j hj => ?_⟩
  · rw [descriptorBytes, State.length_chars]
    rfl
  · obtain ⟨hchar, hzero⟩ := getElem?_chars_flatMap (t.chars r n) j
    rw [Nat.add_assoc, Nat.add_assoc]
    refine ⟨h (2 + 2 * j) _ ?_, h (3 + 2 * j) _ ?_⟩
    · rw [Nat.add_comm]
      refine hchar.trans ?_
      simp [State.chars, hj]
    · rw [show 3 + 2 * j = 2 * j + 1 + 2 by omega]
      exact hzero (by rwa [State.length_chars])

/-- A list that begins with `pre ++ ys` holds `ys` behind `pre`. -/
theorem getElem?_of_append_isPrefix {pre ys l : List Byte} (h : pre ++ ys <+: l) {k : Nat} {b : Byte} (hk : ys[k]? = some b) :
    l[pre.length + k]? = some b := by
  obtain ⟨zs, rfl⟩ := h
  obtain ⟨hlt, -⟩ := List.getElem?_eq_some_iff.1 hk
  rw [List.getElem?_append_left (by rw [List.length_append]; omega), List.getElem?_append_right (by omega),
    Nat.add_sub_cancel_left, hk]

/-! ### Where the parts of a clean table stand -/

section
variable {s t : State} {v : Variant}

/-- The finished image holds the string table from `s0` on. -/
def State.HoldsTable (t s : State) (v : Variant) : Prop :=
  ∀ (k : Nat) (b : Byte), (s.tableBytes v)[k]? = some b → t.imgByte (byteOf (s.tableStart v + k)) = b

/-- Where neither user data nor step 7 touches a clean table it stands in the finished image (40_build.md R184). -/
theorem State.BuildPasses.holdsTable (h : s.BuildPasses v) (hclean : s.CleanTable v) (hlayout : s.LayoutOffTable v)
    (hud : s.UserDataOff (s.tableStart v) (s.tableStart v + tableLength v s.cfg))
    (himage : ∀ a : ImgAddr, a.toNat < s.buildSize.bytes - 2 → ¬s.cfg.coversByte a.toNat → t.imgByte a = s.chipByte v a) :
    t.HoldsTable s v := by
  intro k b hb
  have hk : k < tableLength v s.cfg := by
    rw [← State.length_tableBytes]
    exact (List.getElem?_eq_some_iff.1 hb).1
  have hle := ImgSize.bytes_le s.buildSize
  have hstart := h.tableStart_ge
  have hbelow := hclean
  unfold State.CleanTable at hbelow
  have ha : (byteOf (s.tableStart v + k)).toNat = s.tableStart v + k := by rw [byteOf, BitVec.toNat_ofNat]; omega
  rw [himage _ (by omega) (hud.not_covers (by omega) (by omega)), State.chipByte, ha, h.imageBase_of_table hclean hb]
  refine maskedByte_chipWrites_of_unclaimed (s := s.budgeted v) h.ready.paramsOk (fun c hc hoff => ?_) b
  by_contra hne
  have hoff' := hlayout c hc hne
  rw [ha] at hoff
  omega

/-- The descriptor of `r` with the `p` bytes of the table `pre` before it. -/
theorem State.HoldsTable.descriptorAt (h : t.HoldsTable s v) {pre : List Byte} {r : RamId} {n p : Nat}
    (hpre : pre ++ descriptorBytes (t.chars r n) <+: s.tableBytes v) (hp : pre.length = p) :
    t.DescriptorAt (s.tableStart v + p) r n := by
  refine State.descriptorAt_of_bytes fun k b hb => ?_
  rw [Nat.add_assoc, ← hp]
  exact h _ b (getElem?_of_append_isPrefix hpre hb)

/-- The three descriptors stand one after another (40_build.md R181). -/
theorem State.HoldsTable.descriptors (h : t.HoldsTable s v)
    (hchars : ∀ r, r ≠ .img → ∀ n, t.chars r n = s.chars r n) :
    t.DescriptorAt (s.tableStart v) .strM s.cfg.mfrLen
      ∧ t.DescriptorAt (s.tableStart v + (2 * s.cfg.mfrLen + 2)) .strP s.cfg.prodLen
      ∧ t.DescriptorAt (s.tableStart v + (2 * s.cfg.mfrLen + 2) + (2 * s.cfg.prodLen + 2)) .strS s.cfg.serLen := by
  have hser : descriptorBytes (t.chars .strM s.cfg.mfrLen) ++ descriptorBytes (t.chars .strP s.cfg.prodLen)
      ++ descriptorBytes (t.chars .strS s.cfg.serLen) <+: s.tableBytes v := by
    rw [hchars .strM (by decide), hchars .strP (by decide), hchars .strS (by decide)]
    exact List.prefix_append _ _
  have hprod := (List.prefix_append _ _).trans hser
  have hmfr := (List.prefix_append _ _).trans hprod
  have hlen (r : RamId) (n : Nat) : (descriptorBytes (t.chars r n)).length = 2 * n + 2 := by
    rw [length_descriptorBytes, State.length_chars]
  refine ⟨h.descriptorAt (pre := []) hmfr rfl, h.descriptorAt hprod (hlen .strM _), ?_⟩
  rw [Nat.add_assoc]
  exact h.descriptorAt hser (by rw [List.length_append, hlen, hlen])

/-- The PnP trailer stands behind them (40_build.md R185). -/
theorem State.HoldsTable.trailer (h : t.HoldsTable s v) (ham : v ≠ .am) (hbm : v ≠ .bm) {k : Nat} {b : Byte}
    (hb : ([0x02, 0x03, if s.cfg.isNotPnp then 0x01 else 0x00] : List Byte)[k]? = some b) :
    t.imgByte (byteOf (s.tableStart v + 2 * s.cfg.totalLen + (6 + k))) = b := by
  have hbyte : (s.tableBytes v)[2 * s.cfg.totalLen + (6 + k)]? = some b := by
    have hpart := getElem?_of_append_isPrefix (pre := descriptorBytes (s.chars .strM s.cfg.mfrLen)
      ++ descriptorBytes (s.chars .strP s.cfg.prodLen) ++ descriptorBytes (s.chars .strS s.cfg.serLen))
      List.prefix_rfl hb
    simp only [List.length_append, length_descriptorBytes, State.length_chars] at hpart
    rw [State.tableBytes, if_neg (not_or.2 ⟨ham, hbm⟩), ← hpart, ConfigRegs.totalLen]
    congr 1
    omega
  rw [Nat.add_assoc]
  exact h _ b hbyte

end

/-- The characters of the strings stay in their RAMs (10_state.md R57). -/
theorem State.chars_of_exec {s t : State} (h : exec .build s = .next t) {r : RamId} (hr : r ≠ .img) (n : Nat) :
    t.chars r n = s.chars r n := by
  obtain ⟨-, hm, hp, hs, hu, -⟩ := commandsWriteNoConfiguration.1 .build s t h
  refine List.map_congr_left fun j _ => ?_
  unfold State.ramByte
  cases r with
  | img => exact absurd rfl hr
  | strM => simp only [State.ram, State.ramGen, hm]
  | strP => simp only [State.ram, State.ramGen, hp]
  | strS => simp only [State.ram, State.ramGen, hs]
  | udb => simp only [State.ram, State.ramGen, hu]

/-- Settles O23: a clean table stands as one run of bytes, which the three descriptors and the trailer share out; the slots are
the last writes to their bytes. -/
theorem buildStoresTheStringTable : Obligations.BuildStoresTheStringTable := by
  intro s v answers h hclean
  obtain ⟨t, hexec, himage⟩ := h.exec_build_image
  have hcheck := h.ready.paramsOk
  refine ⟨t, hexec, fun hlayout hud => ?_, fun hud => ?_⟩
  · have htable : t.HoldsTable s v :=
      h.toBuildPasses.holdsTable hclean hlayout hud fun a ha hcov => (himage a ha).2 hcov
    obtain ⟨hmfr, hprod, hser⟩ := htable.descriptors fun r hr n => State.chars_of_exec hexec hr n
    exact ⟨hmfr, hprod, hser, fun ham hbm => ⟨htable.trailer ham hbm (k := 0) rfl, htable.trailer ham hbm (k := 1) rfl,
      htable.trailer ham hbm (k := 2) rfl⟩⟩
  · have slot (a : ImgAddr) {b : Byte} (hlo : 0x0E ≤ a.toNat) (hhi : a.toNat ≤ 0x13)
        (hb : lastWrite (s.slotWrites v s.buildSize.bytes) a.toNat = some b) : t.imgByte a = b := by
      have hsize := ImgSize.bytes_ge s.buildSize
      rw [(himage a (by omega)).2 (hud.not_covers hlo (by omega)),
        State.chipByte_of_reserved hcheck v (.inr ⟨hlo, hhi⟩)]
      exact h.imageBase_of_slot hclean (w := (a.toNat, b)) hb hhi
    refine ⟨?_, slot 0x10 (by decide) (by decide) rfl, slot 0x12 (by decide) (by decide) rfl,
      slot 0x0F (by decide) (by decide) rfl, slot 0x11 (by decide) (by decide) rfl, slot 0x13 (by decide) (by decide) rfl⟩
    rw [slot 0x0E (by decide) (by decide) rfl]
    cases s.params.mfrOffsetMode <;> rfl

end Sys2Proof.Machine
end

section
/-! SUPPORT. The results of a BUILD that completes, the size of its image, and the checksum read back (40_build.md R171, R203, R204,
R206; 42_checksum.md R260, R269). -/

namespace Sys2Proof.Machine

/-! ### The size -/

/-- The size rule in the words of 40_build.md R171. -/
theorem imageSizeFor_of_standard {t : SourceTables} (ht : t = SourceTables.standard) (c : ConfigRegs) (chipid : Byte) :
    imageSizeFor t c chipid =
      if c.szovrEn = true then (if c.szovr256 = true then .b256 else .b128)
      else if chipid = 0x56 ∨ chipid = 0x66 then .b256 else .b128 := by
  rw [ht, imageSizeFor_standard]
  rfl

theorem ImgSize.ofNat_bytes (z : ImgSize) : BitVec.ofNat 9 z.bytes = if z = .b256 then 0x100 else 0x080 := by
  cases z <;> rfl

/-- Settles O29: step 1 applies the rule, and step 10 publishes the size it gave. -/
theorem imageSizeRule : Obligations.ImageSizeRule := by
  refine ⟨fun s hp hmoved htables => ?_, fun s v answers h => ?_⟩
  · rw [State.act, hp]
    show Machine.buildSize s = _
    rw [Machine.buildSize, State.sampleChipid, hmoved, if_neg (by decide)]
    dsimp only
    rw [imageSizeFor_of_standard htables]
  · obtain ⟨m, himage⟩ := h.toBuildPasses.imageBuilt_frame
    refine ⟨_, h.exec_build, ?_, ?_⟩
    · show (s.imageBuilt v).chipid = s.devChipid
      rw [himage]
      rfl
    · show BitVec.ofNat 9 (s.imageBuilt v).sz.bytes = _
      rw [show (s.imageBuilt v).sz = s.buildSize by rw [himage]; rfl, ImgSize.ofNat_bytes, State.buildSize,
        imageSizeFor_of_standard h.standard]
      split_ifs <;> simp_all

/-! ### The results -/

/-- Pins are numbered by their slots (40_build.md R193). -/
theorem any_zipIdx {α : Type} (l : List α) (f : Nat → Bool) :
    (l.zipIdx.any fun p => f p.2) = (List.range l.length).any f := by
  have hmap : l.zipIdx.map (·.2) = List.range l.length := by
    rw [List.zipIdx_map_snd, List.range_eq_range']
  rw [← hmap, List.any_map]
  rfl

/-- Step 10's user area is the budget left, which fits its register (10_state.md R41; 40_build.md R204). -/
theorem State.BuildPasses.toNat_ofInt_userArea {s : State} {v : Variant} (h : s.BuildPasses v) :
    ((BitVec.ofInt 16 (userArea s.params v s.cfg)).toNat : Int) = userArea s.params v s.cfg := by
  have hlo := h.budget
  have hhi := userArea_le_of_standard h.standard v s.cfg
  rw [BitVec.toNat_ofInt, Int.toNat_of_nonneg (by omega)]
  omega

/-- The end of a BUILD that completes, field by field (40_build.md R203, R204; 60_exceptions.md R307). -/
theorem State.BuildPasses.withTrailer_frame {s : State} {v : Variant} (h : s.BuildPasses v) (answers : List (Half × Bool)) :
    ∃ m, (s.buildSummed v answers).withTrailer =
      { s with
        cmd := 1, cmdv := ⟨1, 0, 0, false⟩
        status :=
          ⟨false, true, true, .none,
            (List.range (s.params.nGroups v)).any fun g => decide (3 < (s.cfg.drive g).toNat),
            (List.range (s.params.nCbus v)).any fun k =>
              decide ((s.params.variant v).cbusMax < (s.cfg.cbusCode k).toNat),
            decide (s.cfg.udSize ≠ 0) && decide (s.cfg.udOffset < (s.params.variant v).freeStart),
            decide (s.cfg.udSize ≠ 0) && decide ((s.params.strStart v).toNat ≤ s.cfg.udOffset + s.cfg.udSize),
            answers.any (·.2), false⟩
        uarea := BitVec.ofInt 16 (userArea s.params v s.cfg), cksum := (s.buildSummed v answers).ck
        imgSize := BitVec.ofNat 9 s.buildSize.bytes, img := m, phase := .idle
        cur := s.params.strStart v + BitVec.ofNat 16 (tableLength v s.cfg), sz := s.buildSize, chipid := s.devChipid
        ua := userArea s.params v s.cfg, ck := (s.buildSummed v answers).ck, wi := finalIndex v s.buildSize
        rdwReq := false
        rdwWait := if answers = [] then s.rdwWait else false
        rdwIdx := if answers = [] then s.rdwIdx else 0x4F
        chipidMoved := false, inputs := [] } := by
  obtain ⟨m, himage⟩ := h.imageBuilt_frame
  have hpins := any_zipIdx (s.params.variant v).cbusSlots
    fun k => decide ((s.params.variant v).cbusMax < (s.cfg.cbusCode k).toNat)
  refine ⟨(s.buildSummed v answers).withTrailer.img, ?_⟩
  unfold State.buildSummed
  rw [himage, hpins]
  rfl

/-- Settles O20: the frame of the whole run, with the checksum that of the finished image. -/
theorem buildCompletes : Obligations.BuildCompletes := by
  intro s v answers h
  obtain ⟨m, hframe⟩ := h.toBuildPasses.withTrailer_frame answers
  have hsz : (s.buildSummed v answers).sz = s.buildSize := congrArg State.sz hframe
  have hsum : (s.buildSummed v answers).ck = (s.buildSummed v answers).checksumOf v (s.buildSummed v answers).sz answers :=
    (s.imageBuilt v).seedChecksum.checksummed_ck v answers
  have hcksum : (s.buildSummed v answers).withTrailer.cksum
      = (s.buildSummed v answers).withTrailer.checksumOf v s.buildSize answers := by
    rw [← hsz, State.checksumOf_withTrailer]
    exact hsum
  have htrailer : (s.buildSummed v answers).withTrailer.imgHalf (byteOf (s.buildSize.bytes - 2))
      = (s.buildSummed v answers).withTrailer.cksum := by
    rw [← hsz]
    exact State.imgHalf_putImgHalf (s.buildSummed v answers) _ _
  refine ⟨_, h.exec_build, congrArg State.status hframe, ?_, ?_, hcksum, htrailer, ?_⟩
  · rw [show (s.buildSummed v answers).withTrailer.uarea = _ from congrArg State.uarea hframe]
    exact h.toBuildPasses.toNat_ofInt_userArea
  · rw [show (s.buildSummed v answers).withTrailer.imgSize = _ from congrArg State.imgSize hframe]
    cases s.buildSize <;> rfl
  · rw [hframe]
    rfl

/-! ### A CHECKSUM of the finished image -/

/-- CHECKSUM of a known variant, at its acceptance (42_checksum.md R260, R261). -/
def State.checksumBegun (s : State) (var : Nibble) (szb : Bool) : State :=
  { s.accept (encode (.checksum var szb)) with sz := ImgSize.ofBit szb }.seedChecksum

section
variable {s : State} {var : Nibble} {szb : Bool} {v : Variant}

theorem startChecksum_of_known (hv : Variant.ofCode? var = some v) :
    startChecksum (s.accept (encode (.checksum var szb))) = s.checksumBegun var szb := by
  rcases startChecksum_cases (s.accept (encode (.checksum var szb))) with ⟨hnone, -⟩ | ⟨w, -, heq⟩
  · rw [State.accept_cmdv, CmdV.ofWord_checksum] at hnone
    simp [hv] at hnone
  · have hszb : (s.accept (encode (.checksum var szb))).cmdv.szb = szb := congrArg CmdV.szb (CmdV.ofWord_checksum var szb)
    rw [heq, hszb]
    rfl

theorem State.checksumBegun_starts (hv : Variant.ofCode? var = some v) (hs : s.params.tables = SourceTables.standard) :
    (s.checksumBegun var szb).StartsChecksum v := by
  refine ⟨rfl, rfl, ?_, hs, rfl, rfl⟩
  have hcmdv : (s.checksumBegun var szb).cmdv = ⟨opChecksum, var, 0, szb⟩ := CmdV.ofWord_checksum var szb
  rw [State.runCode, hcmdv, if_neg (show opChecksum ≠ opBuild by decide), hv]

/-- CHECKSUM folds its words, writes CKSUM and ends (42_checksum.md R260..R267). -/
theorem exec_checksum_of_answered (hs : s.Ready) (htables : s.params.tables = SourceTables.standard)
    (hv : Variant.ofCode? var = some v) {answers : List (Half × Bool)} (hlen : answers.length = readsNeeded v (.ofBit szb))
    (hin : s.inputs = answerInputs answers) :
    exec (.checksum var szb) s = .next
      ({ (s.checksumBegun var szb).checksummed v answers with
          cksum := s.checksumOf v (.ofBit szb) answers }.endWith .none) := by
  obtain ⟨m, hrun⟩ := (State.checksumBegun_starts (szb := szb) hv htables).run_checksummed hlen (k := 0) (n := seqFuel)
    (by decide) (by decide)
  have hop : ((s.checksumBegun var szb).checksummed v answers).cmdv.op = opChecksum :=
    congrArg CmdV.op (CmdV.ofWord_checksum var szb)
  have hend := State.finishChecksum_checksum _ hop
  have hidle : ((s.checksumBegun var szb).checksummed v answers).finishChecksum.status.busy = false := by rw [hend]; rfl
  rw [State.run_idle _ _ hidle, hend, ageInputs_zero, ← hin] at hrun
  rw [exec_of_ready (.checksum var szb) hs, commandStart, startChecksum_of_known hv]
  exact congrArg Host.Outcome.next hrun

end

theorem Variant.ofCode?_code (v : Variant) : Variant.ofCode? v.code = some v := by cases v <;> rfl

theorem ImgSize.ofBit_beq (z : ImgSize) : ImgSize.ofBit (z == .b256) = z := by cases z <;> rfl

/-- Settles O31: both commands fold the same words below the trailer. -/
theorem checksumReproducesTheTrailer : Obligations.ChecksumReproducesTheTrailer := by
  intro s v answers h
  obtain ⟨t, hexec, hstatus, -, -, hcksum, htrailer, hframe⟩ := buildCompletes s v answers h
  have hparams : t.params = s.params := by rw [hframe]
  have hrst : t.rst = false := by rw [hframe]; exact h.ready.rstLow
  have hready : { t with inputs := answerInputs answers }.Ready :=
    ⟨hrst, by rw [hstatus], by rw [hparams]; exact h.ready.paramsOk⟩
  have hchecksum := exec_checksum_of_answered (szb := s.buildSize == .b256) hready (by rw [hparams]; exact h.standard)
    (Variant.ofCode?_code v) (by rw [ImgSize.ofBit_beq]; exact h.answered) rfl
  have hsum : { t with inputs := answerInputs answers }.checksumOf v (.ofBit (s.buildSize == ImgSize.b256)) answers = t.cksum := by
    rw [ImgSize.ofBit_beq, hcksum]
    rfl
  exact ⟨t, _, hexec, hchecksum, hsum.trans htrailer.symm, hsum, rfl, rfl, rfl⟩

end Sys2Proof.Machine
end

section
/-! SUPPORT. A BUILD that step 8 ends, since its user data passes the image end (40_build.md R200, R202). -/

namespace Sys2Proof.Machine

/-- A step of the phases B3..B7 with no input to come, and the phase that follows it. -/
theorem State.StandsIn.run_phase {t : State} {p : Phase} {v : Variant} (h : t.StandsIn p v) (hp : p.buildsImage = true)
    {k : Variant → State → State} (hact : t.act = t.withVariant k) (hin : t.inputs = []) :
    (k v t).StandsIn p.next v ∧ (k v t).inputs = [] ∧ ∀ n, t.run (n + 1) = (k v t).run n := by
  have hknown := h.act_eq hact
  have hwait : t.phase ≠ .kWait := fun heq => by
    rw [h.phase] at heq
    simp [heq, Phase.buildsImage] at hp
  have hinputs : t.act.inputs = [] := by
    have hkeep := State.act_inputs t [] hwait
    rw [show { t with inputs := [] } = t by rw [← hin]] at hkeep
    rw [hkeep]
  exact ⟨h.next hp hknown, hknown ▸ hinputs, fun n => by rw [State.run_quiet t n h.busy hwait hin, hknown]⟩

/-- Steps 1..7 of a BUILD that passes its first checks, whatever its user data, with no input to come. -/
theorem State.run_chipBuilt {s : State} {v : Variant} (hvalid : s.cfg.cfgValid = true)
    (hv : Variant.ofCode? s.cfg.variantCode = some v) (hbudget : 0 ≤ userArea s.params v s.cfg) (hin : s.inputs = []) (n : Nat) :
    (startBuild (s.accept (encode .build))).run (n + 8) = (buildChip v (s.tableBuilt v)).run n
      ∧ (buildChip v (s.tableBuilt v)).StandsIn .b8 v ∧ (buildChip v (s.tableBuilt v)).inputs = [] := by
  have hb3 : (s.budgeted v).StandsIn .b3 v := ⟨rfl, rfl, hv⟩
  have hpast : buildBudget v s.sizedBuild = s.budgeted v := by
    rw [buildBudget_eq]
    exact if_neg (Int.not_lt.2 hbudget)
  obtain ⟨hb4, hin4, hrun3⟩ := hb3.run_phase rfl (k := buildZero) (by simp only [State.act, hb3.phase]) hin
  obtain ⟨hb5, hin5, hrun4⟩ := hb4.run_phase rfl (k := buildFixed) (by simp only [State.act, hb4.phase]; rfl) hin4
  obtain ⟨hb6, hin6, hrun5⟩ := hb5.run_phase rfl (k := buildStrings) (by simp only [State.act, hb5.phase]; rfl) hin5
  obtain ⟨hb7, hin7, hrun6⟩ := hb6.run_phase rfl (k := buildPnp) (by simp only [State.act, hb6.phase]; rfl) hin6
  obtain ⟨hb8, hin8, hrun7⟩ := hb7.run_phase rfl (k := buildChip) (by simp only [State.act, hb7.phase]; rfl) hin7
  refine ⟨?_, hb8, hin8⟩
  calc (startBuild (s.accept (encode .build))).run (n + 8)
      = s.sizedBuild.run (n + 6) := State.run_sizedBuild hvalid hv hin (n + 6)
    _ = (s.budgeted v).run (n + 5) := by rw [State.run_buildBudget hv hin, hpast]
    _ = _ := hrun3 (n + 4)
    _ = _ := hrun4 (n + 3)
    _ = _ := hrun5 (n + 2)
    _ = _ := hrun6 (n + 1)
    _ = _ := hrun7 n

/-- Step 8 ends a BUILD whose user data passes the image end (40_build.md R200). -/
theorem exec_build_of_tooLarge {s : State} {v : Variant} (hs : s.Ready) (hvalid : s.cfg.cfgValid = true)
    (hv : Variant.ofCode? s.cfg.variantCode = some v) (hbudget : 0 ≤ userArea s.params v s.cfg) (hin : s.inputs = [])
    (hsome : s.cfg.udSize ≠ 0) (hlarge : s.buildSize.bytes < s.cfg.udOffset + s.cfg.udSize) :
    exec .build s = .next (((buildChip v (s.tableBuilt v)).userWarnings v).endWith .sizeExceeded) := by
  obtain ⟨hrun, hb8, hin8⟩ := State.run_chipBuilt hvalid hv hbudget hin 292
  obtain ⟨m, hframe⟩ := s.chipBuilt_frame v
  have hcfg : (buildChip v (s.tableBuilt v)).cfg = s.cfg := by rw [hframe]; rfl
  have hsz : (buildChip v (s.tableBuilt v)).sz = s.buildSize := by rw [hframe]; rfl
  have hact : (buildChip v (s.tableBuilt v)).act = ((buildChip v (s.tableBuilt v)).userWarnings v).endWith .sizeExceeded := by
    rw [hb8.act_eq (k := buildUser) (by simp only [State.act, hb8.phase])]
    have hcases := buildUser_cases v (buildChip v (s.tableBuilt v))
    rw [hcfg, hsz] at hcases
    rcases hcases with ⟨hnone, -⟩ | ⟨-, -, heq⟩ | ⟨-, hfits, -⟩
    · exact absurd hnone hsome
    · exact heq
    · omega
  rw [exec_of_ready .build hs, commandStart, show seqFuel = 292 + 8 from rfl, hrun,
    State.run_quiet _ 291 hb8.busy (by rw [hb8.phase]; decide) hin8, hact, State.run_idle _ _ rfl]

/-- The steps 3..7 leave the bytes at or above SZ (40_build.md R175). -/
theorem imgByte_chipBuilt_of_high {s : State} (hcheck : s.params.check = true) (v : Variant) {a : ImgAddr}
    (ha : s.buildSize.bytes ≤ a.toNat) : (buildChip v (s.tableBuilt v)).imgByte a = s.imgByte a := by
  have hhigh : 0x80 ≤ a.toNat := (ImgSize.bytes_ge s.buildSize).trans ha
  obtain ⟨m3, h3⟩ := buildZero_frame v (s.budgeted v)
  obtain ⟨m4, h4⟩ := buildFixed_frame v (buildZero v (s.budgeted v))
  obtain ⟨m6, h6⟩ := s.tableBuilt_frame v
  have hpos : 0 < s.buildSize.bytes := Nat.lt_of_lt_of_le (by decide) (ImgSize.bytes_ge s.buildSize)
  calc (buildChip v (s.tableBuilt v)).imgByte a
      = (s.tableBuilt v).imgByte a := imgByte_buildChip_of_high (by rw [h6]; exact hcheck) (by omega)
    _ = (buildFixed v (buildZero v (s.budgeted v))).imgByte a := by
        refine imgByte_table_of_spared hhigh fun k _ => ?_
        rw [h4, h3]
        exact ne_of_lt ((Nat.mod_lt _ hpos).trans_le ha)
    _ = (buildZero v (s.budgeted v)).imgByte a :=
        imgByte_buildFixed_of_high (by rw [h3]; exact Params.offsetsFit_of_check hcheck) hhigh
    _ = s.imgByte a := imgByte_buildZero_of_kept (.inl ha)

/-- Step 7 leaves the trailer's bytes (40_build.md R194 condition 1). -/
theorem State.chipByte_of_trailer {s : State} (hcheck : s.params.check = true) (v : Variant) {a : ImgAddr}
    (ha : 0x7E ≤ a.toNat) : s.chipByte v a = s.imageBase v a.toNat := by
  refine maskedByte_chipWrites_of_unclaimed (s := s.budgeted v) hcheck (fun c hc hoff => ?_) _
  have hle := Params.claim_le hcheck hc
  omega

/-- The image that steps 3..7 build does not depend on the user data. -/
theorem State.chipByte_withoutUserData (s : State) (l : List Arrival) (v : Variant) (a : ImgAddr) :
    { s with cfg := { s.cfg with ud := 0 }, inputs := l }.chipByte v a = s.chipByte v a := rfl

/-- A blob of no bytes covers none. -/
theorem ConfigRegs.not_coversByte_withoutUserData (c : ConfigRegs) (a : Nat) : ¬({ c with ud := 0 } : ConfigRegs).coversByte a := by
  have hsize : ({ c with ud := 0 } : ConfigRegs).udSize = 0 := by simp [ConfigRegs.udSize]
  rw [ConfigRegs.coversByte, hsize]
  omega

/-- Settles O19: steps 1..7 run as in the BUILD without user data, and step 8 ends the command. -/
theorem userDataTooLarge : Obligations.UserDataTooLarge := by
  intro s u v answers hu h hin hsome hlarge
  subst hu
  have hcheck : s.params.check = true := h.ready.paramsOk
  have htables : s.params.tables = SourceTables.standard := h.standard
  have hs : s.Ready := ⟨h.ready.rstLow, h.ready.notBusy, hcheck⟩
  have hexec := exec_build_of_tooLarge hs h.valid h.variant h.budget hin hsome hlarge
  obtain ⟨t', hexec', himage⟩ := h.exec_build_image
  obtain ⟨m, hframe⟩ := s.chipBuilt_frame v
  have hpins := any_zipIdx (s.params.variant v).cbusSlots
    fun k => decide ((s.params.variant v).cbusMax < (s.cfg.cbusCode k).toNat)
  have hbyte (a : ImgAddr) : (((buildChip v (s.tableBuilt v)).userWarnings v).endWith .sizeExceeded).imgByte a
      = (buildChip v (s.tableBuilt v)).imgByte a := by
    rw [State.userWarnings_eq]
    rfl
  refine ⟨_, t', hexec, hexec', ?_, ?_, ?_, ?_, rfl, fun a ha => ?_, fun a hlo hhi => ?_, fun a ha => ?_⟩
  · rw [State.userWarnings_eq, hframe, hpins]
    rfl
  · rw [State.userWarnings_eq, hframe]
    rfl
  · rw [State.userWarnings_eq, hframe]
    rfl
  · rw [State.userWarnings_eq, hframe]
    rfl
  · have huncovered := (himage a ha).2 (s.cfg.not_coversByte_withoutUserData a.toNat)
    calc _ = s.chipByte v a := (hbyte a).trans (imgByte_chipBuilt htables v (by omega))
      _ = _ := (s.chipByte_withoutUserData (answerInputs answers) v a).symm
      _ = t'.imgByte a := huncovered.symm
  · have hge := ImgSize.bytes_ge s.buildSize
    rw [hbyte, imgByte_chipBuilt htables v hhi, State.chipByte_of_trailer hcheck v (by omega)]
  · rw [hbyte, imgByte_chipBuilt_of_high hcheck v ha]

end Sys2Proof.Machine
end

section
/-! SUPPORT. The channel-type encoder case by case, and the one step of ENCODE (41_channel_encoder.md R240..R242). -/

namespace Sys2Proof.Machine

/-! ### Codes -/

/-- The codes 0..7 each name a variant (30_encoding.md R140). -/
theorem Variant.exists_code_eq {c : Nibble} (h : c.toNat < 8) : ∃ v : Variant, c = v.code := by
  have hnamed : ∀ c : Nibble, c.toNat < 8 → ∃ v ∈ allVariants, c = v.code := by decide
  obtain ⟨v, -, hv⟩ := hnamed c h
  exact ⟨v, hv⟩

/-- A function code is that of a function, or one of 5..15, which name none (30_encoding.md R141). -/
theorem ChannelFn.ofCode?_cases (c : Nibble) :
    (∃ f : ChannelFn, c = f.code ∧ ChannelFn.ofCode? c = some f) ∨ (5 ≤ c.toNat ∧ ChannelFn.ofCode? c = none) := by
  by_cases h : c.toNat < 5
  · have hnamed : ∀ c : Nibble, c.toNat < 5 → ∃ f ∈ [ChannelFn.uart, .fifo, .opto, .cpu, .ft1284],
        c = f.code ∧ ChannelFn.ofCode? c = some f := by decide
    obtain ⟨f, -, hf⟩ := hnamed c h
    exact .inl ⟨f, hf⟩
  · have hunnamed : ∀ c : Nibble, 5 ≤ c.toNat → ChannelFn.ofCode? c = none := by decide
    exact .inr ⟨Nat.le_of_not_lt h, hunnamed c (Nat.le_of_not_lt h)⟩

/-! ### The encoder's table -/

/-- A variant code that names no variant encodes as 0, whatever the function (41_channel_encoder.md R242). -/
theorem encodeChannel_of_unknownVariant (family : List Variant) (fn : Nibble) {var : Nibble} (h : 8 ≤ var.toNat) :
    encodeChannel family fn var = 0 := by
  rw [encodeChannel, Variant.ofCode?_of_le h]
  cases ChannelFn.ofCode? fn <;> rfl

/-- The encoder on a variant, for any FAMILY_2232: the row of each function, and the silent fallback (41_channel_encoder.md
R241, R242). -/
theorem encodeChannel_code (family : List Variant) (fn : Nibble) (v : Variant) :
    encodeChannel family fn v.code =
      if fn = 1 then 1
      else if fn = 2 ∧ (v ∈ family ∨ v = .ft232H) then 2
      else if fn = 3 ∧ (v ∈ family ∨ v = .ft232H) then 4
      else if fn = 4 ∧ v = .ft232H then 8
      else 0 := by
  rw [encodeChannel, Variant.ofCode?_code]
  rcases ChannelFn.ofCode?_cases fn with ⟨f, rfl, hf⟩ | ⟨hge, hnone⟩
  · rw [hf]
    cases f <;> simp [channelBits, ChannelFn.code]
  · have hne (c : Nibble) (hc : c.toNat < 5) : fn ≠ c := fun heq => absurd (heq ▸ hge) (Nat.not_le_of_lt hc)
    rw [hnone, if_neg (hne 1 (by decide)), if_neg fun h => hne 2 (by decide) h.1, if_neg fun h => hne 3 (by decide) h.1,
      if_neg fun h => hne 4 (by decide) h.1]

/-- The variants that have OPTO and CPU with the default FAMILY_2232, by their codes (41_channel_encoder.md R241). -/
theorem Variant.mem_family_iff (v : Variant) :
    v ∈ [Variant.ft2232C, .ft2232H] ∨ v = .ft232H ↔ v.code = 3 ∨ v.code = 4 ∨ v.code = 6 := by
  cases v <;> decide

theorem Variant.eq_ft232H_iff (v : Variant) : v = .ft232H ↔ v.code = 6 := by cases v <;> decide

/-- The table with the default FAMILY_2232, on codes (41_channel_encoder.md R241). -/
theorem encodeChannel_standard (fn var : Nibble) :
    encodeChannel [.ft2232C, .ft2232H] fn var =
      if 8 ≤ var.toNat then 0
      else if fn = 1 then 1
      else if fn = 2 ∧ (var = 3 ∨ var = 4 ∨ var = 6) then 2
      else if fn = 3 ∧ (var = 3 ∨ var = 4 ∨ var = 6) then 4
      else if fn = 4 ∧ var = 6 then 8
      else 0 := by
  by_cases h : 8 ≤ var.toNat
  · rw [if_pos h, encodeChannel_of_unknownVariant _ fn h]
  · obtain ⟨v, rfl⟩ := Variant.exists_code_eq (Nat.lt_of_not_le h)
    simp only [if_neg h, encodeChannel_code, Variant.mem_family_iff]
    simp only [Variant.eq_ft232H_iff]

/-- The outputs of a variant with the default FAMILY_2232: UART and FIFO everywhere, OPTO and CPU on 2232C, 2232H and 232H,
FT1284 on 232H (41_channel_encoder.md R241). -/
theorem exists_encodeChannel_standard_iff {var : Nibble} (x : Nibble) (h : var.toNat < 8) :
    (∃ fn, encodeChannel [.ft2232C, .ft2232H] fn var = x) ↔
      x = 0 ∨ x = 1 ∨ ((x = 2 ∨ x = 4) ∧ (var = 3 ∨ var = 4 ∨ var = 6)) ∨ (x = 8 ∧ var = 6) := by
  simp only [encodeChannel_standard, if_neg (Nat.not_le_of_lt h)]
  constructor
  · rintro ⟨fn, rfl⟩
    split_ifs with h1 h2 h3 h4
    · exact .inr (.inl rfl)
    · exact .inr (.inr (.inl ⟨.inl rfl, h2.2⟩))
    · exact .inr (.inr (.inl ⟨.inr rfl, h3.2⟩))
    · exact .inr (.inr (.inr ⟨rfl, h4.2⟩))
    · exact .inl rfl
  · rintro (rfl | rfl | ⟨rfl | rfl, hv⟩ | ⟨rfl, hv⟩)
    · exact ⟨ChannelFn.uart.code, by simp [ChannelFn.code]⟩
    · exact ⟨ChannelFn.fifo.code, by simp [ChannelFn.code]⟩
    · exact ⟨ChannelFn.opto.code, by rcases hv with rfl | rfl | rfl <;> rfl⟩
    · exact ⟨ChannelFn.cpu.code, by rcases hv with rfl | rfl | rfl <;> rfl⟩
    · exact ⟨ChannelFn.ft1284.code, by subst hv; rfl⟩

/-- Settles O7: the encoder's rows at the default family, at the family with 4232H, and the values each column takes. -/
theorem channelTypeTable : Obligations.ChannelTypeTable := by
  refine ⟨encodeChannel_standard, fun fn => ?_, fun var x h => exists_encodeChannel_standard_iff x h⟩
  have h4232H := encodeChannel_code [.ft2232C, .ft2232H, .ft4232H] fn .ft4232H
  simpa [Variant.code] using h4232H

/-! ### The command -/

/-- A sequencer step that ends the command is the whole run. -/
theorem State.run_of_tick_ends {s : State} (n : Nat) (hrun : s.canRun = true) (hend : s.tick.status.busy = false) :
    s.run (n + 1) = s.tick := by
  rw [State.run_succ, if_pos hrun, State.run_idle _ _ hend]

/-- Acceptance of an ENCODE word, its operands read (30_encoding.md R131; 60_exceptions.md R303). -/
theorem State.accept_encode (s : State) (var fn : Nibble) :
    s.accept (encode (.encode var fn)) =
      { s with
        cmd := encode (.encode var fn), cmdv := ⟨opEncode, var, fn, false⟩
        status := .accepted, chipidMoved := false } := by
  rw [State.accept, CmdV.ofWord_encode]

/-- Settles O6: ENCODE is accepted, and its one step looks the value up and ends the command. -/
theorem encodeResult : Obligations.EncodeResult := by
  intro s var fn hs hin
  have hrun : (startEncode (s.accept (encode (.encode var fn)))).canRun = true := by
    show (true && !s.inputDue) = true
    rw [hin]
    rfl
  have htick : (startEncode (s.accept (encode (.encode var fn)))).tick =
      encodeRun (startEncode (s.accept (encode (.encode var fn)))).countDown := rfl
  rw [exec_of_ready (.encode var fn) hs, commandStart, seqFuel, State.run_of_tick_ends _ hrun rfl, htick,
    State.accept_encode]
  rfl

end Sys2Proof.Machine
end

section
/-! SUPPORT. The fold of the checksum as a linear operation, the number of its words, and the command CHECKSUM
(42_checksum.md R260..R271). -/

namespace Sys2Proof.Machine

/-! ### Rotations of a 16-bit word -/

/-- A rotation reads each bit from as many places below it, around the word. -/
theorem getLsbD_rotateLeft_eq (x : Half) (r : Nat) {i : Nat} (hi : i < 16) :
    (x.rotateLeft r).getLsbD i = x.getLsbD ((i + (16 - r % 16)) % 16) := by
  rw [BitVec.getLsbD_rotateLeft]
  by_cases h : i < r % 16
  · rw [decide_eq_true h, cond_true]
    congr 1
    omega
  · rw [decide_eq_false h, cond_false, decide_eq_true hi, Bool.true_and]
    congr 1
    omega

theorem rotateLeft_zero (x : Half) : x.rotateLeft 0 = x := by
  refine BitVec.eq_of_getLsbD_eq fun i hi => ?_
  rw [getLsbD_rotateLeft_eq x 0 hi]
  congr 1
  omega

/-- Rotations add up. -/
theorem rotateLeft_rotateLeft (x : Half) (m n : Nat) : (x.rotateLeft m).rotateLeft n = x.rotateLeft (m + n) := by
  refine BitVec.eq_of_getLsbD_eq fun i hi => ?_
  rw [getLsbD_rotateLeft_eq _ n hi, getLsbD_rotateLeft_eq _ m (Nat.mod_lt _ (by decide)), getLsbD_rotateLeft_eq _ _ hi]
  congr 1
  omega

/-- A rotation moves bits and combines none. -/
theorem xor_rotateLeft (x y : Half) (r : Nat) : (x ^^^ y).rotateLeft r = x.rotateLeft r ^^^ y.rotateLeft r := by
  refine BitVec.eq_of_getLsbD_eq fun i hi => ?_
  simp only [BitVec.getLsbD_xor, getLsbD_rotateLeft_eq _ r hi]

/-- `rotl16` as arithmetic (00_scope.md R18). -/
theorem toNat_rotl16 (x : Half) : (rotl16 x).toNat = (x.toNat * 2 ||| x.toNat / 2 ^ 15) % 2 ^ 16 := by
  have hlow : x.toNat / 2 ^ 15 % 2 ^ 16 = x.toNat / 2 ^ 15 :=
    Nat.mod_eq_of_lt (Nat.lt_of_le_of_lt (Nat.div_le_self _ _) x.isLt)
  rw [Nat.or_mod_two_pow, hlow, rotl16, BitVec.toNat_or, BitVec.toNat_shiftLeft, BitVec.toNat_ushiftRight,
    Nat.shiftLeft_eq, Nat.shiftRight_eq_div_pow, Nat.pow_one]

/-- Settles O16: the two halves of the rotation are a product and a quotient; the fold is the model's own. -/
theorem foldIsXorThenRotateLeft : Obligations.FoldIsXorThenRotateLeft :=
  ⟨toNat_rotl16, State.foldWord_ck⟩

/-! ### The closed form of the fold -/

/-- One fold rotates the sum and the word alike. -/
theorem fold16_eq (ck w : Half) : fold16 ck w = ck.rotateLeft 1 ^^^ w.rotateLeft 1 := by
  rw [fold16, rotl16_eq_rotateLeft, xor_rotateLeft]

/-- A fold is the seed and every word, each rotated by the words folded from it on (42_checksum.md R271). -/
theorem foldl_fold16_eq (seed : Half) (ws : List Half) :
    ws.foldl fold16 seed =
      (ws.zipIdx.map fun p => p.1.rotateLeft (ws.length - p.2)).foldl (· ^^^ ·) (seed.rotateLeft ws.length) := by
  induction ws generalizing seed with
  | nil => exact (rotateLeft_zero seed).symm
  | cons w ws ih =>
    have hseed : (fold16 seed w).rotateLeft ws.length
        = seed.rotateLeft (ws.length + 1) ^^^ w.rotateLeft (ws.length + 1) := by
      rw [fold16_eq, xor_rotateLeft, rotateLeft_rotateLeft, rotateLeft_rotateLeft, Nat.add_comm 1]
    have htail : (ws.zipIdx 1).map (fun p => p.1.rotateLeft (ws.length + 1 - p.2))
        = ws.zipIdx.map fun p => p.1.rotateLeft (ws.length - p.2) := by
      rw [List.zipIdx_succ, List.map_map]
      exact List.map_congr_left fun p _ => by simp
    rw [List.foldl_cons, ih, hseed, ← htail]
    rfl

/-- What differs in the seed differs in the sum, rotated by the number of words. -/
theorem foldl_fold16_xor (seed d : Half) (ws : List Half) :
    ws.foldl fold16 (seed ^^^ d) = ws.foldl fold16 seed ^^^ d.rotateLeft ws.length := by
  induction ws generalizing seed d with
  | nil => rw [List.foldl_nil, List.foldl_nil, List.length_nil, rotateLeft_zero]
  | cons w ws ih =>
    have hstep : fold16 (seed ^^^ d) w = fold16 seed w ^^^ d.rotateLeft 1 := by
      rw [fold16_eq, fold16_eq, xor_rotateLeft]
      ac_rfl
    rw [List.foldl_cons, hstep, ih, rotateLeft_rotateLeft, Nat.add_comm 1]
    rfl

/-- A difference in one word acts as the same difference in the sum before it. -/
theorem foldl_fold16_xor_word (seed w d : Half) (pre post : List Half) :
    (pre ++ (w ^^^ d) :: post).foldl fold16 seed =
      (pre ++ w :: post).foldl fold16 seed ^^^ d.rotateLeft (post.length + 1) := by
  have hseed (ck : Half) : fold16 ck (w ^^^ d) = fold16 (ck ^^^ d) w := by
    rw [fold16, fold16]
    ac_rfl
  rw [List.foldl_append, List.foldl_append, List.foldl_cons, hseed]
  exact foldl_fold16_xor _ d (w :: post)

/-- Each zero word turns 0xAAAA into 0x5555 and back (42_checksum.md R271). -/
theorem foldl_fold16_zeros (n : Nat) :
    (List.replicate n (0x0000 : Half)).foldl fold16 0xAAAA = if n % 2 = 1 then 0x5555 else 0xAAAA := by
  induction n with
  | zero => rfl
  | succ n ih =>
    rw [List.replicate_succ', List.foldl_append, ih]
    rcases Nat.mod_two_eq_zero_or_one n with h | h
    · rw [if_neg (by omega), if_pos (by omega)]
      decide
    · rw [if_pos h, if_neg (by omega)]
      decide

/-- 0xAAAA is kept by a word of ones (42_checksum.md R271). -/
theorem foldl_fold16_ones (n : Nat) : (List.replicate n (0xFFFF : Half)).foldl fold16 0xAAAA = 0xAAAA := by
  have hfix : fold16 0xAAAA 0xFFFF = 0xAAAA := by decide
  induction n with
  | zero => rfl
  | succ n ih => rw [List.replicate_succ, List.foldl_cons, hfix, ih]

/-- Settles O15, by induction on the words: the fold is linear in the seed and in each word. -/
theorem checksumClosedForm : Obligations.ChecksumClosedForm :=
  ⟨foldl_fold16_eq, foldl_fold16_zeros, foldl_fold16_ones, fun seed w pre post b =>
    foldl_fold16_xor_word seed w (BitVec.twoPow 16 b.val) pre post⟩

/-! ### The number of words -/

@[simp] theorem State.length_imageWords (s : State) (lo hi : Nat) : (s.imageWords lo hi).length = hi - lo := by
  simp [State.imageWords]

/-- Settles O14: every word below the bound, or on 230X those before the jump, from the device and after it. -/
theorem wordsFoldedCount : Obligations.WordsFoldedCount := by
  intro s v sz answers hlen
  unfold State.foldedWords
  by_cases hv : v = .ft230X
  · subst hv
    cases sz with
    | b128 => simp
    | b256 =>
      have hlive : answers.length = 16 := hlen
      simp [hlive]
  · cases sz <;> simp [hv, ImgSize.bytes]

/-! ### The command -/

/-- Acceptance of a CHECKSUM word, its operands read (30_encoding.md R131; 60_exceptions.md R303). -/
theorem State.accept_checksum (s : State) (var : Nibble) (szb : Bool) :
    s.accept (encode (.checksum var szb)) =
      { s with
        cmd := encode (.checksum var szb), cmdv := ⟨opChecksum, var, 0, szb⟩
        status := .accepted, chipidMoved := false } := by
  rw [State.accept, CmdV.ofWord_checksum]

/-- Settles O8: the procedure runs to its end (`exec_checksum_of_answered`), and that end is the state said here. -/
theorem checksumResult : Obligations.ChecksumResult := by
  intro s var szb v answers hs htables hv hlen hin
  rw [exec_checksum_of_answered hs htables hv hlen hin, State.checksumBegun, State.accept_checksum]
  rfl

/-- Settles O9: the variant check at acceptance ends the command, before the size and the seed are set. -/
theorem checksumUnknownChip : Obligations.ChecksumUnknownChip := by
  intro s var szb hs hvar
  have hend : startChecksum (s.accept (encode (.checksum var szb)))
      = (s.accept (encode (.checksum var szb))).endWith .unknownChip := by
    rcases startChecksum_cases (s.accept (encode (.checksum var szb))) with ⟨-, heq⟩ | ⟨v, hv, -⟩
    · exact heq
    · rw [State.accept_checksum, Variant.ofCode?_of_le hvar] at hv
      cases hv
  rw [exec_of_ready (.checksum var szb) hs, commandStart, hend, State.run_idle _ _ rfl, State.accept_checksum]
  rfl

end Sys2Proof.Machine
end

section
/-! SUPPORT. One step of the machine: the decoded instruction, the end of a command, rest, and no fault (60_exceptions.md R300,
R306, R308, R327). -/

namespace Sys2Proof.Machine

/-- A legal command word runs its instruction (60_exceptions.md R300). -/
theorem writeCmd_of_decode {w : Word} {i : Instr} (h : decode w = .ok i) (s : State) : writeCmd w s = exec i s := by
  simp only [writeCmd, h]

theorem decode_of_decodeTableWord {nbits w : Nat} {i : Instr} (h : decodeTableWord nbits w = some i) :
    decode (BitVec.ofNat 32 (w % 2 ^ nbits)) = .ok i := by
  unfold decodeTableWord at h
  split at h
  · next j hj => rw [hj, Option.some.inj h]
  · cases h

/-- Settles O5: the write that comes next is carried out, and a word that decodes runs its instruction. -/
theorem stepRunsTheDecodedInstruction : Obligations.StepRunsTheDecodedInstruction := by
  refine ⟨fun s w i k rest hidle hin hw => ?_, fun s nbits w i hw => ?_⟩
  · rw [step_of_cmdWrite hidle hin, writeCmd_of_decode hw]
  · have hidle : (s.withFetchWord nbits w).canRun = false := State.canRun_of_idle rfl
    rw [step_of_cmdWrite hidle rfl, writeCmd_of_decode (decode_of_decodeTableWord hw)]
    rfl

/-- Settles O45: `endWith` is the operation of R306, and with BUSY = 0 the sequencer takes no step. -/
theorem endOfCommand : Obligations.EndOfCommand :=
  fun s code => ⟨rfl, fun n => State.run_idle (s.endWith code) n rfl, rfl, rfl, fun _ => rfl, rfl⟩

/-- With BUSY = 0 and no input to come nothing happens (60_exceptions.md R327). -/
theorem step_of_rest {s : State} (hb : s.status.busy = false) (hin : s.inputs = []) : step s = .next s := by
  simp [step, State.canRun_of_idle hb, landInput, hin]

/-- Settles O54: the sequencer has no step to take, and nothing lands. -/
theorem idleChangesNothing : Obligations.IdleChangesNothing := fun _ hb hin => step_of_rest hb hin

/-! ### No fault -/

theorem exec_ne_fault (i : Instr) (s : State) (f : Fault) : exec i s ≠ .fault f := by
  rcases exec_cases i s with ⟨-, heq⟩ | ⟨-, -, heq⟩ | ⟨-, -, -, heq⟩ | ⟨-, heq⟩ <;> simp [heq]

theorem writeCmd_ne_fault (w : Word) (s : State) (f : Fault) : writeCmd w s ≠ .fault f := by
  unfold writeCmd
  split
  · exact exec_ne_fault _ s f
  · unfold issueIllegal
    rcases issue_cases w (fun t => t.endWith .badCommand) s with ⟨-, heq⟩ | ⟨-, -, heq⟩ | ⟨-, -, -, heq⟩ | ⟨-, heq⟩ <;>
      simp [heq]

/-- No input that lands faults (60_exceptions.md R308). -/
theorem arrive_ne_fault (e : Input) (s : State) (f : Fault) : arrive e s ≠ .fault f := by
  rcases arrive_cases e s with ⟨a, w, -, -, heq⟩ | ⟨a, w, -, -, heq⟩ | ⟨a, -, heq⟩ | ⟨b, -, heq⟩ | ⟨v, -, heq⟩
    | ⟨d, r, -, heq⟩ <;> rw [heq]
  case inl => exact writeCmd_ne_fault w s f
  all_goals simp

/-- Settles O51: the one fault is of a running command that stands where none can, and the invariant excludes it. -/
theorem noFaultUnderTheInvariant : Obligations.NoFaultUnderTheInvariant := by
  intro s f h
  rcases step_cases s with ⟨-, -, heq⟩ | ⟨hrun, hcoh, -⟩ | ⟨-, -, heq⟩ | ⟨-, a, rest, -, heq⟩
  · simp [heq]
  · simp [h.running (State.busy_of_canRun hrun)] at hcoh
  · simp [heq]
  · exact heq ▸ arrive_ne_fault a.input _ f

end Sys2Proof.Machine
end

section
/-! SUPPORT. How a sequencer step moves a command on (10_state.md R58), and where a command can stand. -/

namespace Sys2Proof.Machine

/-- A sequencer step from `s` to `t`, by where it leads: the phases of BUILD past its check, the checksum loop and its wait,
back from the loop to BUILD, or the end of the command. -/
inductive State.MovesTo (s t : State) : Prop
  | stays (heq : t = s)
  | ends (ht : t.phase = .idle) (hb : t.status.busy = false)
  | build (hp : s.phase.ofBuild = true) (hknown : s.phase = .bCheck → (Variant.ofCode? s.cfg.variantCode).isSome = true)
      (ht : t.phase.pastCheck = true) (hwait : t.rdwWait = s.rdwWait) (hreq : t.rdwReq = s.rdwReq)
  | loops (hp : s.phase = .b9 ∨ s.phase = .kLoop) (ht : t.phase = .kLoop) (hwait : t.rdwWait = s.rdwWait)
      (hreq : t.rdwReq = s.rdwReq)
  | asks (hp : s.phase = .kLoop) (ht : t.phase = .kWait) (hwait : t.rdwWait = true) (hreq : t.rdwReq = true)
  | answered (hp : s.phase = .kWait) (ht : t.phase = .kLoop) (hwait : t.rdwWait = false) (hreq : t.rdwReq = false)
  | summed (hp : s.phase = .kLoop) (hop : s.cmdv.op = opBuild) (ht : t.phase.pastCheck = true)
      (hwait : t.rdwWait = s.rdwWait) (hreq : t.rdwReq = s.rdwReq)

theorem State.endWith_movesTo (s t : State) (code : ErrorCode) : s.MovesTo (t.endWith code) := .ends rfl rfl

/-- A step that runs with the known variant has what it has on every variant and what an end of the command has. -/
theorem State.withVariant_of {P : State → Prop} {s : State} {k : Variant → State → State}
    (hend : P (s.endWith .unknownChip)) (hk : ∀ v, P (k v s)) : P (s.withVariant k) := by
  rcases s.withVariant_cases k with ⟨-, heq⟩ | ⟨v, -, heq⟩ <;> rw [heq]
  · exact hend
  · exact hk v

theorem buildUser_movesTo {s : State} (hp : s.phase = .b8) (v : Variant) : s.MovesTo (buildUser v s) := by
  have hbuild : s.phase.ofBuild = true := by rw [hp]; rfl
  obtain ⟨m, hcopy⟩ := (s.userWarnings v).copyUser_frame
  rcases buildUser_cases v s with ⟨-, heq⟩ | ⟨-, -, heq⟩ | ⟨-, -, heq⟩ <;> rw [heq]
  · exact .build hbuild (by simp [hp]) rfl rfl rfl
  · exact s.endWith_movesTo _ _
  · rw [hcopy, State.userWarnings_eq]
    exact .build hbuild (by simp [hp]) rfl rfl rfl

theorem State.checksumStep_movesTo {s : State} (hp : s.phase = .kLoop) : s.MovesTo s.checksumStep := by
  rcases s.checksumStep_cases with ⟨-, heq⟩ | ⟨-, -, -, -, heq⟩ | ⟨-, w, heq⟩ | ⟨-, heq⟩ <;> rw [heq]
  · exact .loops (.inr hp) hp rfl rfl
  · exact .asks hp rfl rfl rfl
  · exact .loops (.inr hp) hp rfl rfl
  · rcases s.finishChecksum_cases with ⟨hop, hend⟩ | ⟨-, hend⟩ <;> rw [hend]
    · exact .summed hp hop rfl rfl rfl
    · exact State.endWith_movesTo _ _ _

theorem State.waitStep_movesTo {s : State} (hp : s.phase = .kWait) : s.MovesTo s.waitStep := by
  rcases s.waitStep_cases with ⟨k, data, err, rest, -, heq⟩ | ⟨-, heq⟩ <;> rw [heq]
  · rw [State.takeAnswer_eq]
    exact .answered hp rfl rfl rfl
  · exact .stays rfl

/-- All a sequencer step can do to the sequencer's place. -/
theorem State.act_movesTo (s : State) : s.MovesTo s.act := by
  cases hp : s.phase with
  | b3 | b4 | b5 | b6 | b7 =>
    rcases State.act_of_buildsImage (s := s) (by rw [hp]; rfl) with ⟨-, heq⟩ | ⟨m, c, drive, cbus, heq⟩ <;> rw [heq]
    · exact s.endWith_movesTo _ _
    · exact .build (by rw [hp]; rfl) (by simp [hp]) (by rw [hp]; rfl) rfl rfl
  | idle =>
    simp only [State.act, hp]
    exact .stays rfl
  | bCheck =>
    simp only [State.act, hp]
    rcases buildCheck_cases s with ⟨code, -, heq⟩ | ⟨-, ⟨v, hv⟩, heq⟩ <;> rw [heq]
    · exact s.endWith_movesTo _ _
    · exact .build (by rw [hp]; rfl) (fun _ => by rw [hv]; rfl) rfl rfl rfl
  | b1 =>
    simp only [State.act, hp]
    obtain ⟨id, n, heq⟩ := buildSize_frame s
    rw [heq]
    exact .build (by rw [hp]; rfl) (by simp [hp]) rfl rfl rfl
  | b2 =>
    simp only [State.act, hp]
    refine State.withVariant_of (s.endWith_movesTo _ _) fun v => ?_
    rw [buildBudget_eq]
    split
    · exact State.endWith_movesTo _ _ _
    · exact .build (by rw [hp]; rfl) (by simp [hp]) rfl rfl rfl
  | b8 =>
    simp only [State.act, hp]
    exact State.withVariant_of (s.endWith_movesTo _ _) (buildUser_movesTo hp)
  | b9 =>
    simp only [State.act, hp]
    exact .loops (.inl hp) rfl rfl rfl
  | b10 | eRun =>
    simp only [State.act, hp]
    exact State.endWith_movesTo _ _ _
  | kLoop =>
    simp only [State.act, hp]
    exact State.checksumStep_movesTo hp
  | kWait =>
    simp only [State.act, hp]
    exact State.waitStep_movesTo hp

/-- In the phases of BUILD a coherent command is a BUILD with no device read out. -/
theorem State.op_of_coherent_ofBuild {s : State} (h : s.coherent = true) (hp : s.phase.ofBuild = true) :
    s.cmdv.op = opBuild ∧ s.rdwWait = false ∧ s.rdwReq = false := by
  simp only [Phase.ofBuild, Bool.or_eq_true, beq_iff_eq] at hp
  rcases hp with hp | hp
  · simpa [State.coherent, hp, and_assoc] using h
  · obtain ⟨hop, -, hwait, hreq⟩ := (State.coherent_iff_of_pastCheck hp).1 h
    exact ⟨hop, hwait, hreq⟩

/-- A running command goes from a coherent place to a coherent place. -/
theorem State.coherent_act {s : State} (h : s.coherent = true) (hb : s.act.status.busy = true) : s.act.coherent = true := by
  have hkept := s.act_untouched
  cases s.act_movesTo with
  | stays heq => rwa [heq]
  | ends ht hidle => simp [hidle] at hb
  | build hp hknown ht hwait hreq =>
    refine (State.coherent_iff_of_pastCheck ht).2 ?_
    rw [hkept.cmdv, hkept.runCode, hwait, hreq]
    obtain ⟨hop, hrdw⟩ := State.op_of_coherent_ofBuild h hp
    refine ⟨hop, ?_, hrdw⟩
    simp only [Phase.ofBuild, Bool.or_eq_true, beq_iff_eq] at hp
    rcases hp with hp | hp
    · simpa [State.runCode, hop] using hknown hp
    · obtain ⟨-, hvariant, -⟩ := (State.coherent_iff_of_pastCheck hp).1 h
      exact hvariant
  | loops hp ht hwait hreq =>
    refine (State.coherent_iff_of_kLoop ht).2 ?_
    rw [hkept.cmdv, hkept.runCode, hwait, hreq]
    rcases hp with hp | hp
    · obtain ⟨hop, hrest⟩ := (State.coherent_iff_of_pastCheck (by rw [hp]; rfl)).1 h
      exact ⟨.inl hop, hrest⟩
    · exact (State.coherent_iff_of_kLoop hp).1 h
  | asks hp ht hwait hreq =>
    obtain ⟨hop, hknown, -, -⟩ := (State.coherent_iff_of_kLoop hp).1 h
    exact (State.coherent_iff_of_kWait ht).2 ⟨hkept.cmdv ▸ hop, hkept.runCode ▸ hknown, hwait, hreq⟩
  | answered hp ht hwait hreq =>
    obtain ⟨hop, hknown, -, -⟩ := (State.coherent_iff_of_kWait hp).1 h
    exact (State.coherent_iff_of_kLoop ht).2 ⟨hkept.cmdv ▸ hop, hkept.runCode ▸ hknown, hwait, hreq⟩
  | summed hp hop ht hwait hreq =>
    obtain ⟨-, hrest⟩ := (State.coherent_iff_of_kLoop hp).1 h
    refine (State.coherent_iff_of_pastCheck ht).2 ?_
    rw [hkept.cmdv, hkept.runCode, hwait, hreq]
    exact ⟨hop, hrest⟩

theorem State.coherent_tick {s : State} (h : s.coherent = true) (hb : s.tick.status.busy = true) :
    s.tick.coherent = true := by
  unfold State.tick at hb ⊢
  split at hb
  · next hp => exact if_pos hp ▸ State.coherent_act h hb
  · next hp => exact if_neg hp ▸ State.coherent_act (s := s.countDown) h hb

end Sys2Proof.Machine
end

section
/-! SUPPORT. Which result registers a command writes (60_exceptions.md R307). -/

namespace Sys2Proof.Machine

/-- A command stands, if anywhere, in a phase its opcode visits (10_state.md R58). -/
structure State.AtOwnPhase (s : State) : Prop where
  build : s.phase.ofBuild = true → s.cmdv.op = opBuild
  encode : s.phase = .eRun → s.cmdv.op = opEncode
  checksum : s.phase = .kLoop ∨ s.phase = .kWait → s.cmdv.op ≠ opEncode

theorem State.atOwnPhase_of_coherent {s : State} (h : s.coherent = true) : s.AtOwnPhase where
  build := fun hp => by
    obtain ⟨hop, -⟩ := State.op_of_coherent_ofBuild h hp
    exact hop
  encode := fun hp => by
    simp only [State.coherent, hp, Bool.and_eq_true, beq_iff_eq] at h
    obtain ⟨⟨hop, -⟩, -⟩ := h
    exact hop
  checksum := fun hp => by
    have hop : s.cmdv.op = opBuild ∨ s.cmdv.op = opChecksum := by
      rcases hp with hp | hp
      · exact ((State.coherent_iff_of_kLoop hp).1 h).1
      · exact ((State.coherent_iff_of_kWait hp).1 h).1
    rcases hop with hop | hop <;> rw [hop] <;> decide

theorem State.atOwnPhase_of_idle {s : State} (h : s.phase = .idle) : s.AtOwnPhase where
  build := fun hp => by simp [h, Phase.ofBuild, Phase.pastCheck] at hp
  encode := fun hp => by simp [h] at hp
  checksum := fun hp => by simp [h] at hp

theorem State.atOwnPhase_of_build {s : State} (hp : s.phase.ofBuild = true) (hop : s.cmdv.op = opBuild) : s.AtOwnPhase where
  build := fun _ => hop
  encode := fun h => by simp [h, Phase.ofBuild, Phase.pastCheck] at hp
  checksum := fun h => by rcases h with h | h <;> simp [h, Phase.ofBuild, Phase.pastCheck] at hp

theorem State.atOwnPhase_of_checksum {s : State} (hp : s.phase = .kLoop ∨ s.phase = .kWait) (hop : s.cmdv.op ≠ opEncode) :
    s.AtOwnPhase where
  build := fun h => by rcases hp with hp | hp <;> simp [hp, Phase.ofBuild, Phase.pastCheck] at h
  encode := fun h => by simp [h] at hp
  checksum := fun _ => hop

theorem Phase.ofBuild_of_pastCheck {p : Phase} (h : p.pastCheck = true) : p.ofBuild = true := by simp [Phase.ofBuild, h]

theorem State.AtOwnPhase.act {s : State} (h : s.AtOwnPhase) : s.act.AtOwnPhase := by
  have hcmdv := s.act_untouched.cmdv
  cases s.act_movesTo with
  | stays heq => rwa [heq]
  | ends ht _ => exact State.atOwnPhase_of_idle ht
  | build hp _ ht _ _ => exact State.atOwnPhase_of_build (Phase.ofBuild_of_pastCheck ht) (hcmdv ▸ h.build hp)
  | loops hp ht _ _ =>
    refine State.atOwnPhase_of_checksum (.inl ht) (hcmdv ▸ ?_)
    rcases hp with hp | hp
    · rw [h.build (by rw [hp]; rfl)]
      decide
    · exact h.checksum (.inl hp)
  | asks hp ht _ _ => exact State.atOwnPhase_of_checksum (.inr ht) (hcmdv ▸ h.checksum (.inl hp))
  | answered hp ht _ _ => exact State.atOwnPhase_of_checksum (.inl ht) (hcmdv ▸ h.checksum (.inr hp))
  | summed _ hop ht _ _ => exact State.atOwnPhase_of_build (Phase.ofBuild_of_pastCheck ht) (hcmdv ▸ hop)

theorem atOwnPhase_commandStart (i : Instr) (s : State) : (commandStart i (s.accept (encode i))).AtOwnPhase := by
  cases i with
  | build => exact State.atOwnPhase_of_build rfl (CmdV.op_ofWord_encode .build)
  | encode var fn =>
    exact ⟨fun h => (by cases h), fun _ => CmdV.op_ofWord_encode (.encode var fn),
      fun h => by rcases h with h | h <;> cases h⟩
  | checksum var szb =>
    rcases startChecksum_cases (s.accept (encode (.checksum var szb))) with ⟨-, heq⟩ | ⟨v, -, heq⟩ <;>
      rw [commandStart, heq]
    · exact State.atOwnPhase_of_idle rfl
    · refine State.atOwnPhase_of_checksum (.inl rfl) ?_
      show (CmdV.ofWord (encode (.checksum var szb))).op ≠ opEncode
      rw [CmdV.op_ofWord_encode]
      show opChecksum ≠ opEncode
      decide

/-! ### What one step writes -/

/-- No step of BUILD writes ENCRES (60_exceptions.md R307). -/
theorem State.act_encres_of_build {s : State} (hp : s.phase.ofBuild = true) : s.act.encres = s.encres := by
  cases h : s.phase with
  | b3 | b4 | b5 | b6 | b7 =>
    rcases State.act_of_buildsImage (s := s) (by rw [h]; rfl) with ⟨-, heq⟩ | ⟨m, c, drive, cbus, heq⟩ <;> rw [heq]
    rfl
  | b9 | b10 =>
    simp only [State.act, h]
    rfl
  | bCheck =>
    simp only [State.act, h]
    rcases buildCheck_cases s with ⟨code, -, heq⟩ | ⟨-, -, heq⟩ <;> rw [heq] <;> rfl
  | b1 =>
    simp only [State.act, h]
    obtain ⟨id, n, heq⟩ := buildSize_frame s
    rw [heq]
  | b2 =>
    simp only [State.act, h]
    refine State.withVariant_of (P := fun t => t.encres = s.encres) rfl fun v => ?_
    rw [buildBudget_eq]
    split <;> rfl
  | b8 =>
    simp only [State.act, h]
    refine State.withVariant_of (P := fun t => t.encres = s.encres) rfl fun v => ?_
    obtain ⟨m, hcopy⟩ := (s.userWarnings v).copyUser_frame
    rcases buildUser_cases v s with ⟨-, heq⟩ | ⟨-, -, heq⟩ | ⟨-, -, heq⟩ <;> rw [heq]
    · rfl
    · rw [State.userWarnings_eq]; rfl
    · rw [hcopy, State.userWarnings_eq]; rfl
  | _ => simp [h, Phase.ofBuild, Phase.pastCheck] at hp

/-- `t` has the result registers of `s` that the command of `s` does not write (60_exceptions.md R307). -/
structure State.WritesOwnResults (s t : State) : Prop where
  image : s.cmdv.op ≠ opBuild → t.img = s.img ∧ t.uarea = s.uarea ∧ t.imgSize = s.imgSize
  cksum : s.cmdv.op = opEncode → t.cksum = s.cksum
  encres : s.cmdv.op ≠ opEncode → t.encres = s.encres

theorem State.WritesOwnResults.refl (s : State) : s.WritesOwnResults s :=
  ⟨fun _ => ⟨rfl, rfl, rfl⟩, fun _ => rfl, fun _ => rfl⟩

theorem State.WritesOwnResults.trans {s t u : State} (h : s.WritesOwnResults t) (k : t.WritesOwnResults u)
    (hcmdv : t.cmdv = s.cmdv) : s.WritesOwnResults u where
  image := fun hop => by
    obtain ⟨himg, huarea, hsize⟩ := h.image hop
    obtain ⟨himg', huarea', hsize'⟩ := k.image (hcmdv ▸ hop)
    exact ⟨himg'.trans himg, huarea'.trans huarea, hsize'.trans hsize⟩
  cksum := fun hop => (k.cksum (hcmdv ▸ hop)).trans (h.cksum hop)
  encres := fun hop => (k.encres (hcmdv ▸ hop)).trans (h.encres hop)

/-- The checksum procedure of a CHECKSUM writes CKSUM alone; a BUILD's writes the trailer too (42_checksum.md R260, R268). -/
theorem State.AtOwnPhase.checksum_act {s : State} (h : s.AtOwnPhase) (hp : s.phase = .kLoop ∨ s.phase = .kWait) :
    s.WritesOwnResults s.act := by
  have hop := h.checksum hp
  rcases hp with hp | hp <;> simp only [State.act, hp]
  · rcases s.checksumStep_cases with ⟨-, heq⟩ | ⟨-, -, -, -, heq⟩ | ⟨-, w, heq⟩ | ⟨-, heq⟩ <;> rw [heq]
    case inr.inr.inr =>
      rcases s.finishChecksum_cases with ⟨hbuild, hend⟩ | ⟨-, hend⟩ <;> rw [hend]
      · exact ⟨fun hne => absurd hbuild hne, fun he => absurd he hop, fun _ => rfl⟩
      · exact ⟨fun _ => ⟨rfl, rfl, rfl⟩, fun he => absurd he hop, fun _ => rfl⟩
    all_goals exact ⟨fun _ => ⟨rfl, rfl, rfl⟩, fun _ => rfl, fun _ => rfl⟩
  · rcases s.waitStep_cases with ⟨k, data, err, rest, -, heq⟩ | ⟨-, heq⟩ <;> rw [heq]
    · rw [State.takeAnswer_eq]
      exact ⟨fun _ => ⟨rfl, rfl, rfl⟩, fun _ => rfl, fun _ => rfl⟩
    · exact .refl s

theorem State.AtOwnPhase.writesOwnResults_act {s : State} (h : s.AtOwnPhase) : s.WritesOwnResults s.act := by
  have build (hp : s.phase.ofBuild = true) : s.WritesOwnResults s.act :=
    ⟨fun hne => absurd (h.build hp) hne, fun he => by simp [h.build hp, opBuild, opEncode] at he,
      fun _ => State.act_encres_of_build hp⟩
  cases hp : s.phase with
  | idle =>
    simp only [State.act, hp]
    exact .refl s
  | eRun =>
    simp only [State.act, hp]
    exact ⟨fun _ => ⟨rfl, rfl, rfl⟩, fun _ => rfl, fun hne => absurd (h.encode hp) hne⟩
  | kLoop => exact h.checksum_act (.inl hp)
  | kWait => exact h.checksum_act (.inr hp)
  | _ => exact build (by rw [hp]; rfl)

theorem State.AtOwnPhase.tick {s : State} (h : s.AtOwnPhase) : s.tick.AtOwnPhase ∧ s.WritesOwnResults s.tick := by
  have hcount : s.countDown.AtOwnPhase := ⟨h.build, h.encode, h.checksum⟩
  unfold State.tick
  split
  · exact ⟨h.act, h.writesOwnResults_act⟩
  · obtain ⟨himage, hcksum, hencres⟩ := hcount.writesOwnResults_act
    exact ⟨hcount.act, himage, hcksum, hencres⟩

theorem State.AtOwnPhase.writesOwnResults_run {s : State} (h : s.AtOwnPhase) (n : Nat) : s.WritesOwnResults (s.run n) := by
  have hrun := State.run_induction (P := fun t => t.AtOwnPhase ∧ t.cmdv = s.cmdv ∧ s.WritesOwnResults t)
    (fun t ⟨hown, hcmdv, hres⟩ _ =>
      ⟨hown.tick.1, t.tick_untouched.cmdv.trans hcmdv, hres.trans hown.tick.2 hcmdv⟩) ⟨h, rfl, .refl s⟩ n
  exact hrun.2.2

/-! ### A whole command -/

/-- Acceptance and the start of a command write no result. -/
theorem commandStart_writesOwnResults (i : Instr) (s : State) :
    (s.accept (encode i)).WritesOwnResults (commandStart i (s.accept (encode i))) := by
  cases i with
  | build => exact ⟨fun _ => ⟨rfl, rfl, rfl⟩, fun _ => rfl, fun _ => rfl⟩
  | encode var fn => exact ⟨fun _ => ⟨rfl, rfl, rfl⟩, fun _ => rfl, fun _ => rfl⟩
  | checksum var szb =>
    rcases startChecksum_cases (s.accept (encode (.checksum var szb))) with ⟨-, heq⟩ | ⟨v, -, heq⟩ <;>
      rw [commandStart, heq] <;> exact ⟨fun _ => ⟨rfl, rfl, rfl⟩, fun _ => rfl, fun _ => rfl⟩

/-- What a command leaves of the results of the others, wherever it stops. -/
theorem exec_results {i : Instr} {s t : State} (h : exec i s = .next t) :
    (commandOp i ≠ opBuild → t.img = s.img ∧ t.uarea = s.uarea ∧ t.imgSize = s.imgSize)
      ∧ (commandOp i = opEncode → t.cksum = s.cksum) ∧ (commandOp i ≠ opEncode → t.encres = s.encres) := by
  rcases exec_cases i s with ⟨-, heq⟩ | ⟨-, -, heq⟩ | ⟨-, -, -, heq⟩ | ⟨-, heq⟩ <;> rw [heq] at h <;> cases h
  · simp
  · simp
  · obtain ⟨himage, hcksum, hencres⟩ := (commandStart_writesOwnResults i s).trans
      ((atOwnPhase_commandStart i s).writesOwnResults_run seqFuel) (commandStart_untouched i _).cmdv
    rw [State.accept_cmdv, CmdV.op_ofWord_encode] at himage hcksum hencres
    exact ⟨himage, hcksum, hencres⟩

/-- Settles O56: a command stands in phases its opcode visits, and each of those writes only its own command's results. -/
theorem commandsWriteOnlyTheirOwnResults : Obligations.CommandsWriteOnlyTheirOwnResults := by
  intro s t
  refine ⟨fun var fn h => ?_, fun var szb h => ?_, fun h => ?_, fun hrun h => ?_⟩
  · obtain ⟨himage, hcksum, -⟩ := exec_results h
    obtain ⟨himg, huarea, hsize⟩ := himage (show opEncode ≠ opBuild by decide)
    exact ⟨himg, huarea, hsize, hcksum rfl⟩
  · obtain ⟨himage, -, hencres⟩ := exec_results h
    obtain ⟨himg, huarea, hsize⟩ := himage (show opChecksum ≠ opBuild by decide)
    exact ⟨himg, huarea, hsize, hencres (show opChecksum ≠ opEncode by decide)⟩
  · obtain ⟨-, -, hencres⟩ := exec_results h
    exact hencres (show opBuild ≠ opEncode by decide)
  · obtain ⟨hcoh, rfl⟩ := step_of_canRun hrun h
    obtain ⟨himage, hcksum, hencres⟩ := (State.atOwnPhase_of_coherent hcoh).writesOwnResults_run seqFuel
    exact ⟨himage, hcksum, hencres⟩

end Sys2Proof.Machine
end

section
/-! SUPPORT. Host accesses while a command runs (10_state.md R32, R40; 70_reset_and_hazards.md R360): a disturbed machine is the
undisturbed one with another host's side, and takes the same sequencer steps. -/

namespace Sys2Proof.Machine

/-! ### Inputs to come -/

/-- The inputs that are no host accesses. -/
def answersOf (l : List Arrival) : List Arrival := l.filter fun a => !a.input.isAccess

theorem answersOf_cons_of_access {a : Arrival} (h : a.input.isAccess = true) (l : List Arrival) :
    answersOf (a :: l) = answersOf l := by simp [answersOf, h]

theorem answersOf_cons_of_answer {a : Arrival} (h : a.input.isAccess = false) (l : List Arrival) :
    answersOf (a :: l) = a :: answersOf l := by simp [answersOf, h]

/-- `a` is the input `b`, and lands no earlier. -/
def Arrival.NotBefore (a b : Arrival) : Prop := a.input = b.input ∧ b.after ≤ a.after

/-- The answers among `l` are the inputs `m`, none earlier: the accesses in between only delay them. -/
def delays (l m : List Arrival) : Prop := List.Forall₂ Arrival.NotBefore (answersOf l) m

/-- The time that passes for the next access is none for the answers after it. -/
theorem delays.age {l m : List Arrival} (h : delays l m) : delays (ageInputs 1 l) (ageInputs 1 m) := by
  have weaken {x m : List Arrival} (h : List.Forall₂ Arrival.NotBefore x m) :
      List.Forall₂ Arrival.NotBefore x (ageInputs 1 m) := by
    cases h with
    | nil => exact .nil
    | cons hab hrest => exact .cons ⟨hab.1, (Nat.sub_le _ 1).trans hab.2⟩ hrest
  unfold delays at h ⊢
  cases l with
  | nil => exact weaken h
  | cons a rest =>
    cases ha : a.input.isAccess with
    | true =>
      rw [answersOf_cons_of_access ha] at h
      rw [ageInputs, answersOf_cons_of_access (by exact ha)]
      exact weaken h
    | false =>
      rw [answersOf_cons_of_answer ha] at h
      rw [ageInputs, answersOf_cons_of_answer (by exact ha)]
      cases h with
      | cons hab hrest => exact .cons ⟨hab.1, Nat.sub_le_sub_right hab.2 1⟩ hrest

theorem delays.head_eq {l m : List Arrival} {a : Arrival} (h : delays (a :: l) m) (ha : a.input.isAccess = false) :
    ∃ b rest, m = b :: rest ∧ a.NotBefore b ∧ delays l rest := by
  unfold delays at h
  rw [answersOf_cons_of_answer ha] at h
  cases h with
  | cons hab hrest => exact ⟨_, _, rfl, hab, hrest⟩

theorem delays.of_access {l m : List Arrival} {a : Arrival} (h : delays (a :: l) m) (ha : a.input.isAccess = true) :
    delays l m := by
  unfold delays at h ⊢
  rwa [answersOf_cons_of_access ha] at h

/-- The last input to come is an answer. -/
def endsWithAnswer (l : List Arrival) : Prop := ∀ a ∈ l.getLast?, a.input.isAccess = false

theorem endsWithAnswer_nil : endsWithAnswer [] := by simp [endsWithAnswer]

theorem endsWithAnswer.tail {a : Arrival} {l : List Arrival} (h : endsWithAnswer (a :: l)) : endsWithAnswer l := by
  cases l with
  | nil => exact endsWithAnswer_nil
  | cons b l => simpa [endsWithAnswer, List.getLast?_cons_cons] using h

theorem endsWithAnswer.age {l : List Arrival} (h : endsWithAnswer l) : endsWithAnswer (ageInputs 1 l) := by
  cases l with
  | nil => exact endsWithAnswer_nil
  | cons a l =>
    cases l with
    | nil => simpa [endsWithAnswer, ageInputs] using h
    | cons b l => simpa [endsWithAnswer, ageInputs, List.getLast?_cons_cons] using h

theorem any_isWrite_age (l : List Arrival) :
    (ageInputs 1 l).any (fun a => a.input.isWrite) = l.any fun a => a.input.isWrite := by cases l <;> rfl

theorem totalAfter_cons (a : Arrival) (l : List Arrival) : totalAfter (a :: l) = a.after + totalAfter l := by
  simp [totalAfter]

/-! ### One sequencer step -/

/-- Step 1 samples the level of DEV_CHIPID that did not move (40_build.md R171, R172). -/
theorem buildSize_of_stable {s : State} (h : s.chipidMoved = false) :
    Machine.buildSize s =
      { s with chipid := s.devChipid, sz := imageSizeFor s.params.tables s.cfg s.devChipid, phase := .b2 } := by
  simp [Machine.buildSize, State.sampleChipid, h]

/-- While DEV_CHIPID does not move, no step outside K_WAIT looks at the host's side but for its level. -/
theorem State.act_withHostSide_of_stable {s : State} {x : HostSide} (hk : s.phase ≠ .kWait) (hs : s.chipidMoved = false)
    (hx : x.chipidMoved = false) (hid : x.devChipid = s.devChipid) : (s.withHostSide x).act = s.act.withHostSide x := by
  by_cases h1 : s.phase = .b1
  · have hphase : (s.withHostSide x).phase = .b1 := h1
    simp only [State.act, h1, hphase]
    rw [buildSize_of_stable hs, buildSize_of_stable (s := s.withHostSide x) hx, ← hid]
    rfl
  · exact s.act_withHostSide x h1 hk

/-- Nor does it write it. -/
theorem State.act_hostSide_of_stable {s : State} (hk : s.phase ≠ .kWait) (hs : s.chipidMoved = false) :
    s.act.hostSide = s.hostSide := by
  have hact : s.act = s.act.withHostSide s.hostSide := State.act_withHostSide_of_stable (x := s.hostSide) hk hs hs rfl
  rw [hact]
  rfl

theorem State.tick_of_ne_kWait {s : State} (hk : s.phase ≠ .kWait) :
    s.tick = { s with inputs := ageInputs 1 s.inputs }.act := by
  rw [State.tick, if_neg hk, State.countDown_eq]

theorem State.tick_hostSide {s : State} (hk : s.phase ≠ .kWait) (hs : s.chipidMoved = false) :
    s.tick.hostSide = { s.hostSide with inputs := ageInputs 1 s.inputs } := by
  rw [State.tick_of_ne_kWait hk]
  exact State.act_hostSide_of_stable (s := { s with inputs := ageInputs 1 s.inputs }) hk hs

theorem State.tick_of_answer {s : State} {k : Nat} {data : Half} {err : Bool} {rest : List Arrival} (hp : s.phase = .kWait)
    (hin : s.inputs = ⟨k, .deviceAck data err⟩ :: rest) : s.tick = { s with inputs := rest }.takeAnswer data err := by
  simp only [State.tick, hp, if_true, State.act, State.waitStep, hin]

theorem State.ackNext_iff {s : State} :
    s.ackNext = true ↔ ∃ k data err rest, s.inputs = ⟨k, .deviceAck data err⟩ :: rest := by
  unfold State.ackNext
  split
  · next k data err rest hin => simp [hin]
  · next hno =>
    simp only [Bool.false_eq_true, false_iff]
    rintro ⟨k, data, err, rest, hin⟩
    exact hno k data err rest hin

/-- A waiting command with a step to take has an answer next. -/
theorem State.answer_of_canRun {s : State} (hp : s.phase = .kWait) (hrun : s.canRun = true) :
    ∃ k data err rest, s.inputs = ⟨k, .deviceAck data err⟩ :: rest := by
  refine State.ackNext_iff.1 ?_
  simp only [State.canRun, hp, if_true, Bool.and_eq_true] at hrun
  exact hrun.2

/-- Outside K_WAIT, the sequencer has a step to take where the inputs leave it one. -/
theorem State.canRun_iff_of_ne_kWait {s : State} (hk : s.phase ≠ .kWait) :
    s.canRun = true ↔ s.status.busy = true ∧ leavesSteps 1 s.inputs := by
  have hdue : s.inputDue = false ↔ leavesSteps 1 s.inputs := by
    unfold State.inputDue leavesSteps
    cases s.inputs with
    | nil => simp
    | cons a rest => simp [Nat.one_le_iff_ne_zero]
  simp [State.canRun, hk, hdue]

/-! ### The host's side of a disturbed machine -/

/-- The host's side `x` of a machine that runs as the undisturbed `s` does: DEV_CHIPID as there, the same answers to come, none
earlier, and HOST_VIOL set in the end exactly if it is there or an access was a `write`. Every access to come lands while
the command runs: an answer comes after it, or its time comes before the undisturbed machine ends. -/
structure HostSide.Follows (x : HostSide) (s : State) (write : Bool) : Prop where
  level : x.devChipid = s.devChipid
  stable : x.chipidMoved = false ∧ s.chipidMoved = false
  answers : delays x.inputs s.inputs
  viol : (x.hostViol || x.inputs.any fun a => a.input.isWrite) = (s.status.hostViol || write)
  lands : endsWithAnswer x.inputs ∨ s.inputs = [] ∧ (s.run (totalAfter x.inputs)).status.busy = true

/-- The undisturbed machine ends as `e`, after at most `n` steps, with every input taken. -/
structure State.EndsAs (s e : State) (n : Nat) : Prop where
  run : s.run n = e
  idle : e.status.busy = false
  taken : e.inputs = []
  rstLow : s.rst = false
  place : s.status.busy = true → s.coherent = true

theorem State.EndsAs.mono {s e : State} {n m : Nat} (h : s.EndsAs e n) (hnm : n ≤ m) : s.EndsAs e m where
  run := by
    obtain ⟨k, rfl⟩ := Nat.exists_eq_add_of_le hnm
    rw [State.run_add, h.run, State.run_idle e k h.idle]
  idle := h.idle
  taken := h.taken
  rstLow := h.rstLow
  place := h.place

theorem State.EndsAs.eq_of_idle {s e : State} {n : Nat} (h : s.EndsAs e n) (hb : s.status.busy = false) : s = e := by
  rw [← h.run, State.run_idle s n hb]

theorem State.EndsAs.canRun {s e : State} {n : Nat} (h : s.EndsAs e n) (hb : s.status.busy = true) : s.canRun = true := by
  by_contra hno
  have hrun : s.run n = s := by
    cases n with
    | zero => rfl
    | succ n => rw [State.run_succ, if_neg hno]
  have hidle := h.idle
  rw [← h.run, hrun, hb] at hidle
  cases hidle

theorem State.EndsAs.tick {s e : State} {n : Nat} (h : s.EndsAs e (n + 1)) (hrun : s.canRun = true) : s.tick.EndsAs e n where
  run := by rw [← h.run, State.run_succ, if_pos hrun]
  idle := h.idle
  taken := h.taken
  rstLow := s.tick_untouched.rst.trans h.rstLow
  place := State.coherent_tick (h.place (State.busy_of_canRun hrun))

theorem State.EndsAs.pos {s e : State} {n : Nat} (h : s.EndsAs e n) (hb : s.status.busy = true) : ∃ k, n = k + 1 := by
  cases n with
  | zero =>
    have hidle := h.idle
    rw [← h.run, State.run_zero, hb] at hidle
    cases hidle
  | succ k => exact ⟨k, rfl⟩

/-- While accesses are to come the command runs. -/
theorem HostSide.Follows.busy {x : HostSide} {s e : State} {write : Bool} {n : Nat} (h : x.Follows s write) (hs : s.EndsAs e n)
    (hin : x.inputs ≠ []) : s.status.busy = true := by
  by_contra hno
  have hidle : s.status.busy = false := by simpa using hno
  have htaken : s.inputs = [] := by
    rw [hs.eq_of_idle hidle]
    exact hs.taken
  rcases h.lands with hlast | ⟨-, hbusy⟩
  · have hmem : x.inputs.getLast hin ∈ answersOf x.inputs :=
      List.mem_filter.2 ⟨List.getLast_mem hin, by simp [hlast _ (List.getLast_mem_getLast? hin)]⟩
    have hanswers := h.answers
    rw [delays, htaken, List.forall₂_nil_right_iff] at hanswers
    rw [hanswers] at hmem
    cases hmem
  · rw [State.run_idle s _ hidle] at hbusy
    exact hno hbusy

/-- Where no access comes next, the disturbed machine takes a step with the undisturbed one. -/
theorem HostSide.Follows.canRun {x : HostSide} {s : State} {write : Bool} (h : x.Follows s write) (hrun : s.canRun = true)
    (hhead : ∀ a ∈ x.inputs.head?, a.input.isAccess = false) : (s.withHostSide x).canRun = true := by
  have hb := State.busy_of_canRun hrun
  have hanswers := h.answers
  by_cases hp : s.phase = .kWait
  · obtain ⟨k, data, err, rest, hin⟩ := State.answer_of_canRun hp hrun
    have hack : (s.withHostSide x).ackNext = true := by
      rw [State.ackNext_iff]
      show ∃ k data err rest, x.inputs = _
      cases hx : x.inputs with
      | nil =>
        rw [hx, hin] at hanswers
        cases hanswers
      | cons a l =>
        rw [hx] at hanswers hhead
        obtain ⟨b, m, hm, ⟨hab, -⟩, -⟩ := hanswers.head_eq (hhead a rfl)
        obtain ⟨rfl, rfl⟩ := List.cons.inj (hin.symm.trans hm)
        obtain ⟨j, i⟩ := a
        obtain rfl : i = .deviceAck data err := hab
        exact ⟨j, data, err, l, rfl⟩
    have hphase : (s.withHostSide x).phase = .kWait := hp
    have hbusy : (s.withHostSide x).status.busy = true := hb
    simp [State.canRun, hphase, hbusy, hack]
  · obtain ⟨-, hleaves⟩ := (State.canRun_iff_of_ne_kWait hp).1 hrun
    refine (State.canRun_iff_of_ne_kWait (s := s.withHostSide x) hp).2 ⟨hb, ?_⟩
    show leavesSteps 1 x.inputs
    cases hx : x.inputs with
    | nil => exact leavesSteps_nil 1
    | cons a l =>
      rw [hx] at hanswers hhead
      obtain ⟨b, m, hm, ⟨-, hle⟩, -⟩ := hanswers.head_eq (hhead a rfl)
      intro c hc
      obtain rfl : a = c := by simpa using hc
      exact (hleaves b (by rw [hm]; rfl)).trans hle

/-- Time passes for both machines. -/
theorem HostSide.Follows.lands_age {x : HostSide} {s : State} {write : Bool} (h : x.Follows s write) (hrun : s.canRun = true)
    (hleaves : leavesSteps 1 x.inputs) :
    endsWithAnswer (ageInputs 1 x.inputs)
      ∨ s.inputs = [] ∧ (s.tick.run (totalAfter (ageInputs 1 x.inputs))).status.busy = true := by
  rcases h.lands with hlast | ⟨hin, hbusy⟩
  · exact .inl hlast.age
  · cases hx : x.inputs with
    | nil => exact .inl endsWithAnswer_nil
    | cons a l =>
      rw [hx] at hleaves hbusy
      have hpos : 1 ≤ a.after := hleaves a rfl
      have htotal : totalAfter (a :: l) = totalAfter (ageInputs 1 (a :: l)) + 1 := by
        rw [ageInputs, totalAfter_cons, totalAfter_cons]
        show a.after + totalAfter l = a.after - 1 + totalAfter l + 1
        omega
      rw [htotal, State.run_succ, if_pos hrun] at hbusy
      exact .inr ⟨hin, hbusy⟩

/-- Outside K_WAIT both machines take the same step, and time passes for the inputs of both. -/
theorem HostSide.Follows.tick_of_ne_kWait {x : HostSide} {s : State} {write : Bool} (h : x.Follows s write)
    (hp : s.phase ≠ .kWait) (hrun : s.canRun = true) (hxrun : (s.withHostSide x).canRun = true) :
    (s.withHostSide x).tick = s.tick.withHostSide { x with inputs := ageInputs 1 x.inputs }
      ∧ { x with inputs := ageInputs 1 x.inputs }.Follows s.tick write := by
  obtain ⟨hmoved, hstable⟩ := h.stable
  have hside := State.tick_hostSide hp hstable
  have hinputs : s.tick.inputs = ageInputs 1 s.inputs := congrArg HostSide.inputs hside
  have hviol : s.tick.status.hostViol = s.status.hostViol := congrArg HostSide.hostViol hside
  obtain ⟨-, hleaves⟩ := (State.canRun_iff_of_ne_kWait (s := s.withHostSide x) hp).1 hxrun
  constructor
  · rw [State.tick_of_ne_kWait (s := s.withHostSide x) hp, State.tick_of_ne_kWait hp]
    exact State.act_withHostSide_of_stable (s := { s with inputs := ageInputs 1 s.inputs })
      (x := { x with inputs := ageInputs 1 x.inputs }) hp hstable hmoved h.level
  · exact {
      level := h.level.trans s.tick_untouched.devChipid.symm
      stable := ⟨hmoved, s.tick_untouched.chipidMoved.trans hstable⟩
      answers := hinputs ▸ h.answers.age
      viol := by rw [hviol, ← h.viol, any_isWrite_age]
      lands := (h.lands_age hrun hleaves).imp_right fun ⟨hin, hbusy⟩ => ⟨by rw [hinputs, hin]; rfl, hbusy⟩ }

/-- In K_WAIT both machines take the same answer. -/
theorem HostSide.Follows.tick_of_kWait {x : HostSide} {s : State} {write : Bool} (h : x.Follows s write)
    (hp : s.phase = .kWait) (hrun : s.canRun = true) (hxrun : (s.withHostSide x).canRun = true) :
    ∃ rest, (s.withHostSide x).tick = s.tick.withHostSide { x with inputs := rest }
      ∧ rest.length ≤ x.inputs.length ∧ { x with inputs := rest }.Follows s.tick write := by
  obtain ⟨k, data, err, rest, hin⟩ := State.answer_of_canRun hp hrun
  obtain ⟨k', data', err', rest', hxin⟩ := State.answer_of_canRun (s := s.withHostSide x) hp hxrun
  replace hxin : x.inputs = ⟨k', .deviceAck data' err'⟩ :: rest' := hxin
  have hanswers := h.answers
  rw [hxin] at hanswers
  obtain ⟨b, m, hm, ⟨hab, -⟩, hdelays⟩ := hanswers.head_eq rfl
  obtain ⟨rfl, rfl⟩ := List.cons.inj (hin.symm.trans hm)
  obtain ⟨rfl, rfl⟩ := Input.deviceAck.inj hab
  have htick := State.tick_of_answer hp hin
  have hside : s.tick.inputs = rest ∧ s.tick.status.hostViol = s.status.hostViol := by
    rw [htick, State.takeAnswer_eq]
    exact ⟨rfl, rfl⟩
  refine ⟨rest', ?_, by simp [hxin], ?_⟩
  · rw [State.tick_of_answer (s := s.withHostSide x) hp hxin, htick, State.takeAnswer_eq, State.takeAnswer_eq]
    rfl
  · exact {
      level := h.level.trans s.tick_untouched.devChipid.symm
      stable := ⟨h.stable.1, s.tick_untouched.chipidMoved.trans h.stable.2⟩
      answers := hside.1 ▸ hdelays
      viol := by
        have hviol := h.viol
        rw [hxin] at hviol
        rw [hside.2, ← hviol]
        rfl
      lands := by
        rcases h.lands with hlast | ⟨hnil, -⟩
        · exact .inl (hxin ▸ hlast).tail
        · rw [hin] at hnil
          cases hnil }

/-- Both machines take the same step. -/
theorem HostSide.Follows.tick {x : HostSide} {s : State} {write : Bool} (h : x.Follows s write)
    (hrun : s.canRun = true) (hxrun : (s.withHostSide x).canRun = true) :
    ∃ y : HostSide, (s.withHostSide x).tick = s.tick.withHostSide y ∧ y.inputs.length ≤ x.inputs.length
      ∧ y.Follows s.tick write := by
  by_cases hp : s.phase = .kWait
  · obtain ⟨rest, htick, hlen, hnext⟩ := h.tick_of_kWait hp hrun hxrun
    exact ⟨_, htick, hlen, hnext⟩
  · obtain ⟨htick, hnext⟩ := h.tick_of_ne_kWait hp hrun hxrun
    refine ⟨_, htick, ?_, hnext⟩
    cases x.inputs <;> simp [ageInputs]

end Sys2Proof.Machine
end

section
/-! SUPPORT. A command interrupted by host accesses ends as it does without them (60_exceptions.md R300; 70_reset_and_hazards.md
R360, R361). -/

namespace Sys2Proof.Machine

/-! ### An access lands -/

theorem hostRead_withHostSide (a : BusAddr) (s : State) (x : HostSide) :
    ∃ w n, hostRead a (s.withHostSide x) = s.withHostSide { x with hostRdata := w, draws := n } := by
  obtain ⟨w, n, heq⟩ := hostRead_frame a (s.withHostSide x)
  exact ⟨w, n, heq⟩

/-- An access of a busy machine leaves HOST_VIOL, where it is a write, and what the model records of a read (10_state.md R32,
R40). -/
theorem arrive_of_access {e : Input} {s : State} {x : HostSide} (he : e.isAccess = true) (hr : s.rst = false)
    (hb : s.status.busy = true) :
    ∃ w n, arrive e (s.withHostSide x)
      = .next (s.withHostSide { x with hostViol := x.hostViol || e.isWrite, hostRdata := w, draws := n }) := by
  cases e with
  | hostWrite a w =>
    refine ⟨x.hostRdata, x.draws, (arrive_hostWrite_of_busy (s := s.withHostSide x) a w hr hb).trans ?_⟩
    rw [show Input.isWrite (.hostWrite a w) = true from rfl, Bool.or_true]
    rfl
  | hostRead a =>
    obtain ⟨w, n, heq⟩ := hostRead_withHostSide a s x
    refine ⟨w, n, (congrArg Host.Outcome.next heq).trans ?_⟩
    rw [show Input.isWrite (.hostRead a) = false from rfl, Bool.or_false]
  | reset b => cases he
  | deviceAck d r => cases he
  | chipId v => cases he

/-- A command that runs at the end of a run runs all the way. -/
theorem State.busy_of_run_add {s : State} {m n : Nat} (h : (s.run (m + n)).status.busy = true) :
    (s.run n).status.busy = true := by
  by_contra hno
  have hidle : (s.run n).status.busy = false := by simpa using hno
  rw [Nat.add_comm, State.run_add, State.run_idle _ m hidle, hidle] at h
  cases h

theorem HostSide.Follows.lands_tail {x : HostSide} {s : State} {write : Bool} {a : Arrival} {rest : List Arrival}
    (h : x.Follows s write) (hin : x.inputs = a :: rest) :
    endsWithAnswer rest ∨ s.inputs = [] ∧ (s.run (totalAfter rest)).status.busy = true := by
  rcases h.lands with hlast | ⟨hnil, hbusy⟩
  · exact .inl (hin ▸ hlast).tail
  · rw [hin, totalAfter_cons] at hbusy
    exact .inr ⟨hnil, State.busy_of_run_add hbusy⟩

/-- Where the disturbed machine alone stops, an access lands and changes nothing the command looks at. -/
theorem HostSide.Follows.land {x : HostSide} {s : State} {write : Bool} {a : Arrival} {rest : List Arrival}
    (h : x.Follows s write) (hr : s.rst = false) (hrun : s.canRun = true) (hstop : (s.withHostSide x).canRun = false)
    (hin : x.inputs = a :: rest) :
    ∃ y : HostSide, step (s.withHostSide x) = .next (s.withHostSide y) ∧ y.inputs = rest ∧ y.Follows s write := by
  have haccess : a.input.isAccess = true := by
    by_contra hno
    have hgo := h.canRun hrun (by simpa [hin] using hno)
    rw [hstop] at hgo
    cases hgo
  obtain ⟨w, n, harrive⟩ := arrive_of_access (x := { x with inputs := rest }) haccess hr (State.busy_of_canRun hrun)
  refine ⟨{ x with hostViol := x.hostViol || a.input.isWrite, hostRdata := w, draws := n, inputs := rest }, ?_, rfl, ?_⟩
  · have hland : step (s.withHostSide x) = arrive a.input (s.withHostSide { x with inputs := rest }) := by
      have hin' : (s.withHostSide x).inputs = a :: rest := hin
      simp only [step, hstop, landInput, hin']
      rfl
    exact hland.trans harrive
  · exact {
      level := h.level
      stable := h.stable
      answers := (hin ▸ h.answers).of_access haccess
      viol := by rw [← h.viol, hin, List.any_cons, Bool.or_assoc]
      lands := h.lands_tail hin }

/-! ### Runs, and the whole queue -/

/-- `t` is a disturbed machine whose undisturbed run ends as `e` within `n` steps. -/
def State.Disturbed (t e : State) (write : Bool) (n : Nat) : Prop :=
  ∃ (s : State) (x : HostSide), t = s.withHostSide x ∧ s.EndsAs e n ∧ x.Follows s write

/-- A run of a disturbed machine takes it to its end or to an access that lands. -/
theorem State.Disturbed.run {t e : State} {write : Bool} {n m : Nat} (h : t.Disturbed e write n) (hnm : n ≤ m) :
    (t.run m).Disturbed e write n ∧ (t.run m).canRun = false ∧ (t.run m).inputs.length ≤ t.inputs.length := by
  induction m generalizing t n with
  | zero =>
    obtain ⟨s, x, rfl, hs, hx⟩ := h
    obtain rfl : n = 0 := Nat.le_zero.1 hnm
    refine ⟨⟨s, x, rfl, hs, hx⟩, State.canRun_of_idle ?_, Nat.le_refl _⟩
    show s.status.busy = false
    rw [show s = e from hs.run]
    exact hs.idle
  | succ m ih =>
    rw [State.run_succ]
    split
    · next hgo =>
      obtain ⟨s, x, rfl, hs, hx⟩ := h
      have hb : s.status.busy = true := State.busy_of_canRun (s := s.withHostSide x) hgo
      obtain ⟨k, rfl⟩ := hs.pos hb
      have hrun := hs.canRun hb
      obtain ⟨y, htick, hlen, hy⟩ := hx.tick hrun hgo
      obtain ⟨⟨s', x', heq, hs', hx'⟩, hstop, hlen'⟩ :=
        ih (n := k) ⟨s.tick, y, htick, hs.tick hrun, hy⟩ (Nat.le_of_succ_le_succ hnm)
      refine ⟨⟨s', x', heq, hs'.mono (Nat.le_succ k), hx'⟩, hstop, hlen'.trans ?_⟩
      rw [htick]
      exact hlen
    · next hstop => exact ⟨h, by simpa using hstop, Nat.le_refl _⟩

/-- Where a disturbed machine stops with accesses to come, the next one lands. -/
theorem State.Disturbed.land {t e : State} {write : Bool} {n : Nat} {a : Arrival} {rest : List Arrival}
    (h : t.Disturbed e write n) (hstop : t.canRun = false) (hin : t.inputs = a :: rest) :
    ∃ t', step t = .next t' ∧ t'.inputs = rest ∧ t'.Disturbed e write n := by
  obtain ⟨s, x, rfl, hs, hx⟩ := h
  replace hin : x.inputs = a :: rest := hin
  have hrun := hs.canRun (hx.busy hs (by simp [hin]))
  obtain ⟨y, hstep, hrest, hy⟩ := hx.land hs.rstLow hrun hstop hin
  exact ⟨_, hstep, hrest, s, y, rfl, hs, hy⟩

/-- Where a disturbed machine has a step to take, a step of the model runs it on. -/
theorem State.Disturbed.step_of_canRun {t e : State} {write : Bool} {n : Nat} (h : t.Disturbed e write n)
    (hgo : t.canRun = true) : step t = .next (t.run seqFuel) := by
  obtain ⟨s, x, rfl, hs, -⟩ := h
  have hplace : (s.withHostSide x).coherent = true := hs.place (State.busy_of_canRun (s := s.withHostSide x) hgo)
  simp [step, hgo, resume, hplace]

/-- `t` is `e` but for HOST_VIOL, set where an access was a `write`, and what the model records of the reads. -/
def State.EndsLike (t e : State) (write : Bool) : Prop :=
  t = { e with
    status := { e.status with hostViol := e.status.hostViol || write }, hostRdata := t.hostRdata, draws := t.draws }

/-- Where it stops with nothing to come, the command has ended, in the same state. -/
theorem State.Disturbed.ended {t e : State} {write : Bool} {n : Nat} (h : t.Disturbed e write n) (hstop : t.canRun = false)
    (hin : t.inputs = []) : t.status.busy = false ∧ t.EndsLike e write := by
  obtain ⟨s, x, rfl, hs, hx⟩ := h
  replace hin : x.inputs = [] := hin
  have hidle : s.status.busy = false := by
    by_contra hno
    have hgo := hx.canRun (hs.canRun (by simpa using hno)) (by simp [hin])
    rw [hstop] at hgo
    cases hgo
  obtain rfl := hs.eq_of_idle hidle
  have hviol := hx.viol
  rw [hin, List.any_nil, Bool.or_false] at hviol
  refine ⟨hidle, ?_⟩
  unfold State.EndsLike State.withHostSide
  simp only [hx.level, hx.stable.1, hin, hviol, ← hs.taken, ← hx.stable.2]

theorem steps_of_rest {s : State} (hb : s.status.busy = false) (hin : s.inputs = []) (n : Nat) : steps n s = .next s := by
  induction n with
  | zero => rfl
  | succ n ih => rw [steps_succ_of_next (step_of_rest hb hin), ih]

/-- Two steps for each input to come take a disturbed machine to its end: one lands it, one runs the command on. -/
theorem State.Disturbed.steps {t e : State} {write : Bool} {k N : Nat} (h : t.Disturbed e write seqFuel)
    (hstop : t.canRun = false) (hlen : t.inputs.length ≤ k) (hN : 2 * k ≤ N) :
    ∃ w, steps N t = .next w ∧ w.EndsLike e write := by
  induction k generalizing t N with
  | zero =>
    have hin : t.inputs = [] := List.length_eq_zero_iff.1 (Nat.le_zero.1 hlen)
    obtain ⟨hidle, hend⟩ := h.ended hstop hin
    exact ⟨t, steps_of_rest hidle hin N, hend⟩
  | succ k ih =>
    cases hin : t.inputs with
    | nil =>
      obtain ⟨hidle, hend⟩ := h.ended hstop hin
      exact ⟨t, steps_of_rest hidle hin N, hend⟩
    | cons a rest =>
      obtain ⟨t', hstep, hrest, ht'⟩ := h.land hstop hin
      obtain ⟨M, rfl⟩ : ∃ M, N = M + 1 + 1 := ⟨N - 2, by omega⟩
      have hlen' : t'.inputs.length ≤ k := by
        rw [hin, List.length_cons] at hlen
        rw [hrest]
        omega
      rw [steps_succ_of_next hstep]
      cases hgo : t'.canRun with
      | true =>
        obtain ⟨hnext, hstop', hle⟩ := ht'.run (Nat.le_refl seqFuel)
        rw [steps_succ_of_next (ht'.step_of_canRun hgo)]
        exact ih hnext hstop' (hle.trans hlen') (by omega)
      | false => exact ih ht' hgo hlen' (by omega)

/-! ### A command from its acceptance on -/

theorem commandStart_withInputs (i : Instr) (s : State) (l : List Arrival) (w : Word) :
    commandStart i ({ s with inputs := l }.accept w) = { commandStart i (s.accept w) with inputs := l } := by
  cases i with
  | build => rfl
  | encode var fn => rfl
  | checksum var szb =>
    rcases startChecksum_cases (s.accept w) with ⟨hv, heq⟩ | ⟨v, hv, heq⟩ <;>
      rcases startChecksum_cases ({ s with inputs := l }.accept w) with ⟨hv', heq'⟩ | ⟨v', hv', heq'⟩
    · simp only [commandStart, heq, heq']
      rfl
    · exact absurd (hv.symm.trans hv') (by simp)
    · exact absurd (hv'.symm.trans hv) (by simp)
    · simp only [commandStart, heq, heq']
      rfl

/-- The inputs to come have no part in how a command starts. -/
theorem exec_withInputs (i : Instr) {s : State} (hs : s.Ready) (l : List Arrival) :
    exec i { s with inputs := l } = .next ({ commandStart i (s.accept (encode i)) with inputs := l }.run seqFuel) := by
  rw [exec_of_ready i (s := { s with inputs := l }) ⟨hs.rstLow, hs.notBusy, hs.paramsOk⟩, commandStart_withInputs]

/-- With no device read out, a command that runs starts in a coherent place. -/
theorem coherent_commandStart (i : Instr) {s : State} (hreq : s.rdwReq = false) (hwait : s.rdwWait = false)
    (hb : (commandStart i (s.accept (encode i))).status.busy = true) :
    (commandStart i (s.accept (encode i))).coherent = true := by
  cases i with
  | build => simp [commandStart, startBuild, State.coherent, CmdV.ofWord_build, hreq, hwait]
  | encode var fn => simp [commandStart, startEncode, State.coherent, CmdV.ofWord_encode, hreq, hwait]
  | checksum var szb =>
    rcases startChecksum_cases (s.accept (encode (.checksum var szb))) with ⟨-, heq⟩ | ⟨v, hv, heq⟩ <;>
      rw [commandStart, heq] at hb ⊢
    · cases hb
    · rw [State.accept_cmdv, CmdV.ofWord_checksum] at hv
      refine (State.coherent_iff_of_kLoop rfl).2 ⟨.inr ?_, ?_, hwait, hreq⟩
      · simp [CmdV.ofWord_checksum]
      · simp [State.runCode, CmdV.ofWord_checksum, opChecksum, opBuild, hv]

/-- A command that ends undisturbed runs as long as a read that waits for it shows it running. -/
theorem State.busy_of_run_with_input {s : State} {e : Input} {T n : Nat} (hin : s.inputs = [])
    (hend : (s.run n).status.busy = false) (hbusy : ({ s with inputs := [⟨T, e⟩] }.run n).status.busy = true) :
    (s.run T).status.busy = true := by
  induction T generalizing s n with
  | zero =>
    by_contra hno
    have hidle : s.status.busy = false := by simpa [State.run_zero] using hno
    rw [State.run_idle { s with inputs := [⟨0, e⟩] } n hidle, hidle] at hbusy
    cases hbusy
  | succ T ih =>
    cases n with
    | zero =>
      rw [State.run_zero] at hend hbusy
      rw [show s.status.busy = true from hbusy] at hend
      cases hend
    | succ n =>
      by_cases hb : s.status.busy = true
      · have hk : s.phase ≠ .kWait := fun hp => by
          rw [State.run_stuck hp hin, hb] at hend
          cases hend
        have hleaves : leavesSteps 1 [(⟨T + 1, e⟩ : Arrival)] := by simp [leavesSteps]
        have hact : s.act.inputs = [] := (congrArg State.inputs (s.act_inputs s.inputs hk)).trans hin
        rw [State.run_quiet s n hb hk hin] at hend
        rw [State.run_step s n hb hk hleaves] at hbusy
        rw [State.run_quiet s T hb hk hin]
        exact ih hact hend hbusy
      · have hidle : s.status.busy = false := by simpa using hb
        rw [State.run_idle { s with inputs := [⟨T + 1, e⟩] } _ hidle, hidle] at hbusy
        cases hbusy

theorem answersOf_eq_nil {l : List Arrival} (h : (l.all fun a => a.input.isAccess) = true) : answersOf l = [] := by
  simpa [answersOf, List.filter_eq_nil_iff] using h

/-- A command issued with accesses and answers to come is, at its start, a disturbed machine. -/
theorem HostSide.follows_of_inputs {s : State} {answers : List (Half × Bool)} {inputs : List Arrival}
    (hstable : s.chipidMoved = false) (hin : s.inputs = answerInputs answers)
    (hlands : answers = [] ∧ (inputs.all fun a => a.input.isAccess) = true ∧ (s.run (totalAfter inputs)).status.busy = true
      ∨ Interleaves answers inputs) :
    ({ s.hostSide with inputs := inputs } : HostSide).Follows s (inputs.any fun a => a.input.isWrite) where
  level := rfl
  stable := ⟨hstable, hstable⟩
  answers := by
    have hkept : answersOf inputs = s.inputs := by
      rw [hin]
      rcases hlands with ⟨rfl, hall, -⟩ | hinter
      · exact answersOf_eq_nil hall
      · exact hinter.answersKept
    show List.Forall₂ Arrival.NotBefore (answersOf inputs) s.inputs
    rw [hkept]
    exact List.forall₂_same.2 fun _ _ => ⟨rfl, Nat.le_refl _⟩
  viol := rfl
  lands := by
    rcases hlands with ⟨rfl, -, hbusy⟩ | hinter
    · exact .inr ⟨hin, hbusy⟩
    · obtain ⟨before, data, err, rfl⟩ := hinter.endsWithAnswer
      refine .inl fun a ha => ?_
      obtain rfl : (⟨100, .deviceAck data err⟩ : Arrival) = a := by simpa using ha
      rfl

/-- Settles O13: the started command is a disturbed machine; its first run takes it to the first access, and two steps for each
input take it to its end. -/
theorem commandEndsDespiteHostAccesses : Obligations.CommandEndsDespiteHostAccesses := by
  intro i s u answers inputs hs hreq hwait hexec hidle htaken hlands
  have hplace := coherent_commandStart i hreq hwait
  have hkept := commandStart_untouched i (s.accept (encode i))
  have hrst := hkept.rst.trans hs.rstLow
  have hstable := hkept.chipidMoved
  simp only [exec_withInputs i hs, Host.Outcome.next.injEq, exists_eq_left'] at hexec hlands ⊢
  generalize commandStart i (s.accept (encode i)) = c at *
  have hends : { c with inputs := answerInputs answers }.EndsAs u seqFuel := ⟨hexec, hidle, htaken, hrst, hplace⟩
  have hruns : answers = [] ∧ (inputs.all fun a => a.input.isAccess) = true
        ∧ ({ c with inputs := answerInputs answers }.run (totalAfter inputs)).status.busy = true
      ∨ Interleaves answers inputs := by
    refine hlands.imp_left fun ⟨hnil, hall, hbusy⟩ => ⟨hnil, hall, ?_⟩
    subst hnil
    exact State.busy_of_run_with_input (s := { c with inputs := [] }) rfl (hexec ▸ hidle) hbusy
  have hdist : { c with inputs := inputs }.Disturbed u (inputs.any fun a => a.input.isWrite) seqFuel :=
    ⟨_, _, rfl, hends, HostSide.follows_of_inputs (s := { c with inputs := answerInputs answers }) hstable rfl hruns⟩
  obtain ⟨hstart, hstop, hlen⟩ := hdist.run (Nat.le_refl seqFuel)
  obtain ⟨w, hsteps, hend⟩ := hstart.steps hstop hlen (Nat.le_refl _)
  exact ⟨_, w, rfl, hsteps, hend⟩

end Sys2Proof.Machine
end

section
/-! SUPPORT. A running command that host accesses interrupt (10_state.md R32, R40; 70_reset_and_hazards.md R360). -/

namespace Sys2Proof.Machine

/-- A disturbed machine comes to its end wherever it stands: one step lets the command run on to the next input, and two steps
for each input do the rest. -/
theorem State.Disturbed.steps_to_end {t e : State} {write : Bool} (h : t.Disturbed e write seqFuel) :
    ∃ w, Machine.steps (2 * t.inputs.length + 1) t = .next w ∧ w.EndsLike e write := by
  cases hgo : t.canRun with
  | true =>
    obtain ⟨hnext, hstop, hlen⟩ := h.run (Nat.le_refl seqFuel)
    rw [steps_succ_of_next (h.step_of_canRun hgo)]
    exact hnext.steps hstop hlen (Nat.le_refl _)
  | false => exact h.steps hgo (Nat.le_refl _) (Nat.le_succ _)

/-- Settles O12: the running command is a disturbed machine of the one that only the answers reach. -/
theorem runningCommandIgnoresHostAccesses : Obligations.RunningCommandIgnoresHostAccesses := by
  rintro s q answers inputs hb hr hcoh hmoved rfl hidle htaken hlands
  have hends : { s with inputs := answerInputs answers }.EndsAs _ seqFuel := ⟨rfl, hidle, htaken, hr, fun _ => hcoh⟩
  have hfollows := HostSide.follows_of_inputs (s := { s with inputs := answerInputs answers }) hmoved rfl hlands
  have hdist : { s with inputs := inputs }.Disturbed ({ s with inputs := answerInputs answers }.run seqFuel)
      (inputs.any fun a => a.input.isWrite) seqFuel := ⟨_, _, rfl, hends, hfollows⟩
  exact hdist.steps_to_end

end Sys2Proof.Machine
end

section
/-! SUPPORT. CHIPID: who writes it, and the layout entry that holds it (40_build.md R171, R172, R192, R197;
70_reset_and_hazards.md R356). -/

namespace Sys2Proof.Machine

/-- Another DEV_CHIPID while a command runs is remembered (70_reset_and_hazards.md R356). -/
theorem driveChipid_of_busy {s : State} {value : Byte} (hb : s.status.busy = true) (hne : value ≠ s.devChipid) :
    driveChipid value s = { s with devChipid := value, chipidMoved := true } := by
  simp [driveChipid, hb, hne]

/-- Step 1 draws a free value for a DEV_CHIPID that moved (70_reset_and_hazards.md R356). -/
theorem buildSize_of_moved {s : State} (h : s.chipidMoved = true) :
    Machine.buildSize s =
      { s with
        chipid := Config.unstableChipid s.draws, draws := s.draws + 1, phase := .b2
        sz := imageSizeFor s.params.tables s.cfg (Config.unstableChipid s.draws) } := by
  simp [Machine.buildSize, State.sampleChipid, h]

theorem State.withVariant_chipid {s : State} {k : Variant → State → State} (h : ∀ v, (k v s).chipid = s.chipid) :
    (s.withVariant k).chipid = s.chipid := by
  rcases s.withVariant_cases k with ⟨-, heq⟩ | ⟨v, -, heq⟩ <;> rw [heq]
  · rfl
  · exact h v

/-- CHIPID is written by step 1 only (40_build.md R172). -/
theorem State.act_chipid {s : State} (h1 : s.phase ≠ .b1) : s.act.chipid = s.chipid := by
  cases hp : s.phase with
  | b1 => exact absurd hp h1
  | b3 | b4 | b5 | b6 | b7 =>
    rcases State.act_of_buildsImage (s := s) (by rw [hp]; rfl) with ⟨-, heq⟩ | ⟨m, c, drive, cbus, heq⟩ <;> rw [heq]
    rfl
  | bCheck =>
    simp only [State.act, hp]
    rcases buildCheck_cases s with ⟨code, -, heq⟩ | ⟨-, -, heq⟩ <;> rw [heq] <;> rfl
  | b2 =>
    simp only [State.act, hp]
    refine State.withVariant_chipid fun v => ?_
    rw [buildBudget_eq]
    split <;> rfl
  | b8 =>
    simp only [State.act, hp]
    refine State.withVariant_chipid fun v => ?_
    obtain ⟨m, hcopy⟩ := (s.userWarnings v).copyUser_frame
    rcases buildUser_cases v s with ⟨-, heq⟩ | ⟨-, -, heq⟩ | ⟨-, -, heq⟩ <;> rw [heq]
    · rfl
    · rw [State.userWarnings_eq]; rfl
    · rw [hcopy, State.userWarnings_eq]; rfl
  | kLoop =>
    simp only [State.act, hp]
    have hfinish : s.finishChecksum.chipid = s.chipid := by
      rcases s.finishChecksum_cases with ⟨-, hend⟩ | ⟨-, hend⟩ <;> rw [hend] <;> rfl
    rcases s.checksumStep_cases with ⟨-, heq⟩ | ⟨-, -, -, -, heq⟩ | ⟨-, w, heq⟩ | ⟨-, heq⟩ <;> rw [heq]
    case inr.inr.inr => exact hfinish
    all_goals rfl
  | kWait =>
    simp only [State.act, hp]
    rcases s.waitStep_cases with ⟨k, data, err, rest, -, heq⟩ | ⟨-, heq⟩ <;> rw [heq]
    rw [State.takeAnswer_eq]
  | idle => simp only [State.act, hp]
  | b9 | b10 | eRun =>
    simp only [State.act, hp]
    rfl

/-- An entry in which every byte fits is a whole byte (40_build.md R194 condition 4). -/
theorem LayoutEntry.whole_of_fits_ff {e : LayoutEntry} (h : e.fits 0xFF = true) : e.shift = 0 ∧ e.mask = 0xFF := by
  have hshift : e.shift = 0 := by
    simp only [LayoutEntry.fits, Bool.and_eq_true, decide_eq_true_eq] at h
    have hle : ∀ n : Fin 8, (0xFF : Byte).toNat <<< n.val ≤ 0xFF → n = 0 := by decide
    exact hle e.shift h.1
  have hmask := LayoutEntry.and_mask_of_fits h
  rw [hshift] at hmask
  exact ⟨hshift, BitVec.allOnes_and.symm.trans hmask⟩

/-- Step 7 stores CHIPID whole at the CHIP_ID entry: no other write touches its bits (40_build.md R192, R194, R197). -/
theorem imgByte_buildChip_of_chipId {s : State} (hcheck : s.params.check = true) {v : Variant} {e : LayoutEntry}
    (he : e ∈ (s.params.variant v).layout) (hkind : e.kind = .chipId) : (buildChip v s).imgByte e.off = s.chipid := by
  have hfits : e.fits 0xFF = true := by
    have hall := Params.fits_of_check hcheck he
    rw [hkind] at hall
    exact hall 0xFF (List.mem_cons_of_mem _ (List.mem_singleton.2 rfl))
  obtain ⟨hshift, hmask⟩ := LayoutEntry.whole_of_fits_ff hfits
  have hwrite : s.entryWrite v e = ⟨e.off, BitVec.allOnes 8, s.chipid⟩ := by
    rw [State.entryWrite, hkind, hshift, hmask]
    exact congrArg (MaskedWrite.mk e.off (BitVec.allOnes 8)) (BitVec.shiftLeft_zero s.chipid)
  have hmem : s.entryWrite v e ∈ s.chipWrites v :=
    List.mem_append_left _ (List.mem_append_left _ (List.mem_map_of_mem he))
  have hbits := maskedByte_and_mask (State.chipWrites_apart hcheck v) hmem (s.imgByte e.off)
  rw [hwrite, BitVec.and_allOnes, BitVec.and_allOnes] at hbits
  exact (imgByte_buildChip v s e.off).trans hbits

/-- Settles O37: the move is remembered, step 1 draws, no other phase writes CHIPID, and step 7 stores it. -/
theorem movedChipidIsDrawnOnce : Obligations.MovedChipidIsDrawnOnce := by
  refine ⟨fun s value => driveChipid_of_busy, fun s hp hmoved => ?_, fun s => State.act_chipid,
    fun s v hp hcheck hv e he hkind => ?_⟩
  · have hact : s.act = Machine.buildSize s := by simp only [State.act, hp]
    rw [hact, buildSize_of_moved hmoved]
    exact ⟨rfl, fun htables => imageSizeFor_of_standard htables s.cfg _⟩
  · have hact : s.act = buildChip v s := by simp only [State.act, hp, State.withVariant_of_known hv]
    rw [hact]
    exact imgByte_buildChip_of_chipId hcheck he hkind

end Sys2Proof.Machine
end

section
/-! SUPPORT. RST asserted and released (70_reset_and_hazards.md R340..R342, R344). -/

namespace Sys2Proof.Machine

/-- Where the sequencer has no step to take, the input that comes next lands. -/
theorem step_of_arrival {s : State} {a : Arrival} {rest : List Arrival} (hidle : s.canRun = false)
    (hin : s.inputs = a :: rest) : step s = arrive a.input { s with inputs := rest } := by
  simp only [step, hidle, landInput, hin]
  rfl

/-- IMG after a reset (70_reset_and_hazards.md R341). -/
theorem assertReset_img_of_idle {s : State} (h : s.status.busy = false) :
    (assertReset s).img = s.img ∧ (assertReset s).imgGen = s.imgGen := by
  simp [assertReset, h]

theorem assertReset_img_of_busy {s : State} (h : s.status.busy = true) :
    (assertReset s).img = [] ∧ (assertReset s).imgGen = s.imgGen + 1 := by
  simp [assertReset, h]

/-- A RAM with no known byte reads as its free values (log 1). -/
theorem State.imgByte_of_empty {s : State} (h : s.img = []) (a : ImgAddr) :
    s.imgByte a = Config.powerOnByte .img s.imgGen a.toNat := by
  simp [State.imgByte, State.ramByte, State.ram, State.ramGen, h, Memory.read?]

section
variable {s : State}

/-- A write to CMD while RST is asserted is ignored, whatever its word (70_reset_and_hazards.md R340). -/
theorem writeCmd_of_rst (hr : s.rst = true) (w : Word) : writeCmd w s = .next s := by
  have hignored (w : Word) (start : State → State) : issue w start s = .next s := by simp [issue, hr]
  unfold writeCmd
  split
  · next i _ => rw [exec_eq_issue, hignored]
  · exact hignored w _

/-- So is every other write (70_reset_and_hazards.md R340). -/
theorem arrive_hostWrite_of_rst (hr : s.rst = true) (a : BusAddr) (w : Word) : arrive (.hostWrite a w) s = .next s := by
  by_cases ha : busTarget a = .cmd
  · simp only [arrive, ha, if_true, writeCmd_of_rst hr]
  · simp [arrive, ha, hostWrite, hr]

/-- A read returns 0 (70_reset_and_hazards.md R340). -/
theorem hostRead_of_rst (hr : s.rst = true) (a : BusAddr) : hostRead a s = { s with hostRdata := 0 } := by
  simp [hostRead, hr]

end

end Sys2Proof.Machine

namespace Sys2Proof

open Machine

/-- Settles O46: the reset lands, and the machine it leaves is idle, so that each later input lands, too. (In `Machine` the name
is that of the operation.) -/
theorem resetInput : Obligations.ResetInput := by
  intro s k rest hstop hin
  refine ⟨assertReset { s with inputs := rest }, step_of_arrival hstop hin, rfl, fun hidle => ?_, fun hbusy a => ?_,
    fun j later => ?_⟩
  · exact assertReset_img_of_idle (s := { s with inputs := rest }) hidle
  · obtain ⟨himg, hgen⟩ := assertReset_img_of_busy (s := { s with inputs := rest }) hbusy
    exact ⟨by rw [himg]; rfl, by rw [State.imgByte_of_empty himg, hgen]⟩
  · have lands (level : Bool) (e : Input) : step { assertReset s with rst := level, inputs := ⟨j, e⟩ :: later } =
        arrive e { assertReset s with rst := level, inputs := later } :=
      step_of_arrival (s := { assertReset s with rst := level, inputs := ⟨j, e⟩ :: later }) (State.canRun_of_idle rfl) rfl
    refine ⟨fun a w => ?_, fun a => ?_, lands true (.reset false), fun level data err => lands level (.deviceAck data err)⟩
    · exact (lands true (.hostWrite a w)).trans (arrive_hostWrite_of_rst rfl a w)
    · exact (lands true (.hostRead a)).trans (congrArg Host.Outcome.next (hostRead_of_rst rfl a))

end Sys2Proof
end

section
/-! SUPPORT. How many steps a command without a device read takes (70_reset_and_hazards.md R361; 42_checksum.md R270). -/

namespace Sys2Proof.Machine

/-- Without device reads the loop ends within 128 steps, the last of them that of its exit (42_checksum.md R263, R270). -/
theorem State.StartsChecksum.run_unread {s : State} {v : Variant} (h : s.StartsChecksum v) (hin : s.inputs = [])
    (hunread : ¬(v = .ft230X ∧ s.sz = .b256)) (n : Nat) :
    ∃ m, n ≤ m ∧ s.run (n + 128) = (s.checksummed v []).finishChecksum.run m := by
  by_cases hv : v = .ft230X
  · subst hv
    have hsz : s.sz = .b128 := by
      cases hsz : s.sz with
      | b128 => rfl
      | b256 => exact absurd ⟨rfl, hsz⟩ hunread
    exact ⟨n + 108, Nat.le_add_right n 108, h.run_skipped hsz hin (n + 108)⟩
  · have hle := s.wordBound_le
    have hsteps := h.run_plain hv hin (n + 127 - s.wordBound)
    rw [show s.wordBound + (n + 127 - s.wordBound + 1) = n + 128 by omega] at hsteps
    exact ⟨_, by omega, hsteps⟩

/-- A code names one variant (30_encoding.md R140). -/
theorem Variant.eq_code_of_ofCode? {c : Nibble} {v : Variant} (h : Variant.ofCode? c = some v) : c = v.code := by
  revert h
  revert c
  cases v <;> decide

/-- A CHECKSUM without a device read ends within its folds and one more step (70_reset_and_hazards.md R361). -/
theorem run_startChecksum_idle {s : State} (htables : s.params.tables = SourceTables.standard) (hin : s.inputs = [])
    {var : Nibble} {szb : Bool} (hunread : ¬(var = Variant.ft230X.code ∧ szb = true)) :
    ((startChecksum (s.accept (encode (.checksum var szb)))).run (1 + 127)).status.busy = false := by
  cases hv : Variant.ofCode? var with
  | none =>
    have hend : startChecksum (s.accept (encode (.checksum var szb)))
        = (s.accept (encode (.checksum var szb))).endWith .unknownChip := by
      rw [State.accept_checksum, startChecksum, hv]
    rw [hend, State.run_idle _ _ rfl]
    rfl
  | some v =>
    have hloop : ¬(v = .ft230X ∧ (s.checksumBegun var szb).sz = .b256) := by
      rintro ⟨rfl, hsz⟩
      refine hunread ⟨Variant.eq_code_of_ofCode? hv, ?_⟩
      cases szb with
      | true => rfl
      | false => cases hsz
    obtain ⟨m, -, hrun⟩ := (State.checksumBegun_starts (szb := szb) hv htables).run_unread hin hloop 0
    have hop : ((s.checksumBegun var szb).checksummed v []).cmdv.op = opChecksum :=
      congrArg CmdV.op (CmdV.ofWord_checksum var szb)
    rw [startChecksum_of_known hv, hrun, State.finishChecksum_checksum _ hop, State.run_idle _ _ rfl]
    rfl

/-- A BUILD that nothing ends early and that reads no device ends within the bound (70_reset_and_hazards.md R361). -/
theorem State.BuildPasses.run_idle_unread {s : State} {v : Variant} (h : s.BuildPasses v) (hin : s.inputs = [])
    (hunread : ¬(v = .ft230X ∧ s.buildSize = .b256)) :
    ((startBuild (s.accept (encode .build))).run (12 + 127)).status.busy = false := by
  obtain ⟨m, himage⟩ := h.imageBuilt_frame
  have hsz : (s.imageBuilt v).seedChecksum.sz = s.buildSize := by rw [himage]; rfl
  have hempty : (s.imageBuilt v).seedChecksum.inputs = [] := by rw [himage]; exact hin
  have hop : (s.buildSummed v []).cmdv.op = opBuild := by
    show (s.imageBuilt v).cmdv.op = opBuild
    rw [himage]
    exact congrArg CmdV.op CmdV.ofWord_build
  have hstart := h.startsChecksum
  obtain ⟨k, hk, hrun⟩ := hstart.run_unread hempty (hsz ▸ hunread) 1
  obtain ⟨j, rfl⟩ := Nat.exists_eq_add_of_le' hk
  have hseeded : { (s.imageBuilt v).seedChecksum with inputs := ageInputs 10 s.inputs } = (s.imageBuilt v).seedChecksum := by
    rw [hin, ageInputs_nil, ← hempty]
  have hend : (s.buildSummed v []).finishChecksum.run (j + 1) = (s.buildSummed v []).withTrailer :=
    State.run_withTrailer (s := s.buildSummed v []) hstart.busy hop rfl j
  rw [show 12 + 127 = 1 + 128 + 10 from rfl, h.run_seeded (1 + 128) (hin ▸ leavesSteps_nil 10), hseeded, hrun,
    show (s.imageBuilt v).seedChecksum.checksummed v [] = s.buildSummed v [] from rfl, hend]
  rfl

/-- A BUILD whose user data passes the image end is ended by step 8 (40_build.md R200). -/
theorem State.run_startBuild_of_tooLarge {s : State} {v : Variant} (hvalid : s.cfg.cfgValid = true)
    (hv : Variant.ofCode? s.cfg.variantCode = some v) (hbudget : 0 ≤ userArea s.params v s.cfg) (hin : s.inputs = [])
    (hsome : s.cfg.udSize ≠ 0) (hlarge : s.buildSize.bytes < s.cfg.udOffset + s.cfg.udSize) (n : Nat) :
    (startBuild (s.accept (encode .build))).run (n + 9)
      = (((buildChip v (s.tableBuilt v)).userWarnings v).endWith .sizeExceeded).run n := by
  obtain ⟨hrun, hb8, hin8⟩ := State.run_chipBuilt hvalid hv hbudget hin (n + 1)
  have huser : buildUser v (buildChip v (s.tableBuilt v))
      = ((buildChip v (s.tableBuilt v)).userWarnings v).endWith .sizeExceeded := by
    obtain ⟨m, hframe⟩ := s.chipBuilt_frame v
    rw [hframe]
    exact (if_neg hsome).trans (if_pos hlarge)
  have hact : (buildChip v (s.tableBuilt v)).act = buildUser v (buildChip v (s.tableBuilt v)) :=
    hb8.act_eq (by simp only [State.act, hb8.phase])
  rw [show n + 9 = n + 1 + 8 from rfl, hrun, State.run_quiet _ n hb8.busy (by rw [hb8.phase]; decide) hin8, hact, huser]

/-- Every BUILD without a device read ends within its phases and 127 folds (70_reset_and_hazards.md R361). -/
theorem run_startBuild_idle {s : State} (hs : s.Ready) (htables : s.params.tables = SourceTables.standard)
    (hin : s.inputs = []) (hunread : ¬(s.cfg.variantCode = Variant.ft230X.code ∧ s.buildSize = .b256)) :
    ((startBuild (s.accept (encode .build))).run (12 + 127)).status.busy = false := by
  have ended {t : State} {code : ErrorCode} {n : Nat} (h : (startBuild (s.accept (encode .build))).run (12 + 127)
      = (t.endWith code).run n) : ((startBuild (s.accept (encode .build))).run (12 + 127)).status.busy = false := by
    rw [h, State.run_idle _ _ rfl]
    rfl
  have hfirst : (startBuild (s.accept (encode .build))).run (12 + 127)
      = (buildCheck (startBuild (s.accept (encode .build)))).run 138 := State.run_quiet _ 138 rfl Phase.noConfusion hin
  rcases buildCheck_cases (startBuild (s.accept (encode .build))) with ⟨code, -, heq⟩ | ⟨hvalid, ⟨v, hv⟩, -⟩
  · exact ended (hfirst.trans (by rw [heq]))
  replace hvalid : s.cfg.cfgValid = true := hvalid
  replace hv : Variant.ofCode? s.cfg.variantCode = some v := hv
  by_cases hbudget : userArea s.params v s.cfg < 0
  · have hover : buildBudget v s.sizedBuild = { s.sizedBuild with ua := userArea s.params v s.cfg }.endWith .sizeExceeded := by
      rw [buildBudget_eq]
      exact if_pos hbudget
    exact ended ((State.run_sizedBuild hvalid hv hin 137).trans ((State.run_buildBudget hv hin 136).trans (by rw [hover])))
  replace hbudget := Int.not_lt.1 hbudget
  by_cases hfits : s.cfg.udSize = 0 ∨ s.cfg.udOffset + s.cfg.udSize ≤ s.buildSize.bytes
  · refine State.BuildPasses.run_idle_unread ⟨hs, htables, hvalid, hv, hbudget, hfits⟩ hin fun ⟨hvar, hsz⟩ => hunread ⟨?_, hsz⟩
    exact hvar ▸ Variant.eq_code_of_ofCode? hv
  · obtain ⟨hsome, hlarge⟩ := not_or.1 hfits
    exact ended (State.run_startBuild_of_tooLarge hvalid hv hbudget hin hsome (Nat.lt_of_not_le hlarge) 130)

/-- ENCODE ends in its one step (70_reset_and_hazards.md R361). -/
theorem run_startEncode_idle {s : State} (hin : s.inputs = []) (var fn : Nibble) :
    ((startEncode (s.accept (encode (.encode var fn)))).run 1).status.busy = false := by
  have hrun : (startEncode (s.accept (encode (.encode var fn)))).run 1
      = encodeRun (startEncode (s.accept (encode (.encode var fn)))) := State.run_quiet _ 0 rfl Phase.noConfusion hin
  rw [hrun]
  rfl

/-- Settles O53: the three bounds, each command's run followed to its end. -/
theorem commandsEndWithinTheirBound : Obligations.CommandsEndWithinTheirBound := fun _ hs htables hin =>
  ⟨run_startBuild_idle hs htables hin, run_startEncode_idle hin, fun _ _ => run_startChecksum_idle htables hin⟩

end Sys2Proof.Machine
end

section
/-! SUPPORT. The commands of a machine just reset (70_reset_and_hazards.md R343). -/

namespace Sys2Proof.Machine

/-- Settles O48: the reset state is ready and has no valid configuration, and each command ends as it does from every such state. -/
theorem commandsAfterReset : Obligations.CommandsAfterReset := by
  intro p hcheck htables
  have hs : { State.reset with params := p }.Ready := ⟨rfl, rfl, hcheck⟩
  have hvalid : { State.reset with params := p }.cfg.cfgValid = false := show ConfigRegs.reset.cfgValid = false by decide
  have hencres : encodeChannel p.family2232 3 6 = 4 :=
    (encodeChannel_code p.family2232 3 .ft232H).trans (by simp)
  refine ⟨⟨_, (buildChecksConfigurationThenVariant _ hs rfl).1 hvalid, ?_⟩, ⟨_, encodeResult _ 6 3 hs rfl, hencres, ?_⟩,
    ⟨_, checksumResult _ 4 false .ft2232H [] hs htables rfl rfl rfl, ?_⟩⟩
  · exact show (Status.accepted.ended .noConfiguration).toWord = 0x012 by decide
  · exact show (Status.accepted.ended .none).toWord = 0x002 by decide
  · exact show (Status.accepted.ended .none).toWord = 0x002 by decide

end Sys2Proof.Machine
end
